-- ==== Sys2Proof/Word.lean ====
section
/-! DEFINITION. The word types of the block: octets, 10-bit windows, the beats and words of the command port. -/

namespace Sys2Proof

/-- An octet (00_scope.md R5 `OCTW`). -/
abbrev Octet := BitVec 8

/-- A 10-bit window or pattern; bit `k` is window index `k`, index 0 the earliest (30_encoding.md R72, R82). -/
abbrev Window := BitVec 10

/-- A beat of the command port: a header, or one half of an operand word (log entry 1). -/
abbrev Beat := BitVec 32

/-- An operand word or a data word of a response (30_encoding.md R60). -/
abbrev PortWord := BitVec 64

/-- The window with the fields `d9`, `d8`, `d` of 30_encoding.md R72: `{d9, d8, d}`. -/
def dataWindow (d9 d8 : Bool) (d : Octet) : Window :=
  BitVec.ofBool d9 ++ BitVec.ofBool d8 ++ d

end Sys2Proof
end

