-- ==== Sys2Proof/Config.lean ====
section
/-! DEFINITION. The parameters of 00_scope.md R5: the fixed numbers, and the record of what is configuration
(the pattern ROM, the depth of a channel). -/

namespace Sys2Proof

/-- Bits per TMDS window, and the stride (R5 `WIN`). -/
abbrev WIN : Nat := 10
/-- Least resampled length a TMDS refresh accepts (R5 `MIN_TMDS`). -/
abbrev MIN_TMDS : Nat := 20
/-- Largest value `offset + duration` of a pushed sample (R5 `TMAX`). -/
abbrev TMAX : Int := 2 ^ 63 - 2
/-- Duration of the last sample of a resampled stream (R5 `LAST_DUR`). -/
abbrev LAST_DUR : Nat := 1
/-- Number of input channels (R5 `NCH`). -/
abbrev NCH : Nat := 8
/-- Number of input slots (R5 `NSLOT`). -/
abbrev NSLOT : Nat := 8
/-- Widest bus a channel may declare (R5 `BUS_WMAX`). -/
abbrev BUS_WMAX : Nat := 32

/-- What the spec leaves to the configuration: the pattern ROM (R6, 10_state.md R19) and `DEPTH`
(20_memory.md R48; `none` is unbounded). No command writes it. -/
structure Config where
  /-- The control codes `CTRL[0..3]` (30_encoding.md R74). -/
  ctrl  : Vector Window 4
  /-- The guard-band patterns `GUARD[0..2]` (30_encoding.md R75). -/
  guard : Vector Window 3
  /-- `DEPTH`: the most samples one channel holds, `none` for no bound (log entry 4; what a length past the 64-bit word of a
  response then answers is log entry 11). -/
  depth : Option Nat
  deriving DecidableEq, Repr

/-- The default configuration: the spec's default tables (R74, R75; log entry 3) and no bound on the depth
(DESIGN CHOICE, log entry 4). -/
def Config.default : Config where
  ctrl  := #v[0x354#10, 0x0AB#10, 0x154#10, 0x2AB#10]
  guard := #v[0x2CC#10, 0x133#10, 0x2CC#10]
  depth := none

end Sys2Proof
end

