-- ==== Sys2Proof/Syntax.lean ====
section
/-! DEFINITION. The instructions: one constructor per row of spec/opcode_table.json. The first seventeen are the host
commands (30_encoding.md R62, R63), the last eleven the classes of the window decode (R77). -/

namespace Sys2Proof

/-- An instruction. An operand taken from the header has its field's width, an operand word is 64 bits (R63); no
operand is range-checked here, since a command whose operand is out of range is answered `REJECT` by its own rule. -/
inductive Instr where
  /-- `CH.OPEN ch, kind, width, timescale, start_ts, start_sub` (40_fifo.md R90). -/
  | chOpen (ch kind width : Octet) (timescale startTs startSub : PortWord)
  /-- `CH.PUSH ch, offset, duration, value` (R91). -/
  | chPush (ch : Octet) (offset duration value : PortWord)
  /-- `CH.DROP ch` (R92). -/
  | chDrop (ch : Octet)
  /-- `CH.STAT ch` (R93). -/
  | chStat (ch : Octet)
  /-- `CH.RD ch, idx` (R94). -/
  | chRd (ch : Octet) (idx : PortWord)
  /-- `BIND slot, ch` (41_config.md R110). -/
  | bind (slot ch : Octet)
  /-- `UNBIND slot` (R112). -/
  | unbind (slot : Octet)
  /-- `BIND.GET slot` (R113). -/
  | bindGet (slot : Octet)
  /-- `LANE.SET v` (R114). -/
  | laneSet (v : BitVec 16)
  /-- `LANE.GET` (R115). -/
  | laneGet
  /-- `RS.RISE` (42_resampler.md R131). -/
  | rsRise
  /-- `RS.ANY` (R132). -/
  | rsAny
  /-- `GMII.REFRESH` (43_framer.md R147). -/
  | gmiiRefresh
  /-- `TMDS.REFRESH` (45_tmds_classify.md R182). -/
  | tmdsRefresh
  /-- `OUT.STAT unit` (40_fifo.md R96). -/
  | outStat (unit : Octet)
  /-- `OUT.RD unit, idx` (R97). -/
  | outRd (unit : Octet) (idx : PortWord)
  /-- `OUT.BYTE frame, k` (R98). -/
  | outByte (frame k : PortWord)
  /-- A window equal to `CTRL[0]` (45_tmds_classify.md R173). -/
  | control0
  /-- A window equal to `CTRL[1]` (R173). -/
  | control1
  /-- A window equal to `CTRL[2]` (R173). -/
  | control2
  /-- A window equal to `CTRL[3]` (R173). -/
  | control3
  /-- A window equal to `GUARD[0]`, lane 0 (R174). -/
  | guardLane0
  /-- A window equal to `GUARD[1]`, lane 1 (R174). -/
  | guardLane1
  /-- A window equal to `GUARD[2]`, lane 2 (R174). -/
  | guardLane2
  /-- A data window with `d9 = 0`, `d8 = 0` (R175, R176). -/
  | data00 (d : Octet)
  /-- A data window with `d9 = 0`, `d8 = 1`. -/
  | data01 (d : Octet)
  /-- A data window with `d9 = 1`, `d8 = 0`. -/
  | data10 (d : Octet)
  /-- A data window with `d9 = 1`, `d8 = 1`. -/
  | data11 (d : Octet)
  deriving DecidableEq, Repr

/-- The history register of the classifier, `last_symbol_type` (10_state.md R25): what the symbol before left. -/
inductive LastSymbolType where
  | data
  | preamble
  | guard
  deriving DecidableEq, Repr

/-- The context in which a window is decoded (30_encoding.md R77): the lane and the history register. -/
structure WindowContext where
  lane : Fin 3
  last : LastSymbolType
  deriving DecidableEq, Repr

/-- Whether the guard arm may be tried (R174): the symbol before was `CONTROL` or `GUARD`. -/
def WindowContext.guardOpen (ctx : WindowContext) : Bool :=
  ctx.last != .data

end Sys2Proof
end

