-- ==== Sys2Proof/WellFormed.lean ====
section
/-! DEFINITION. When an instruction is what its own encoding decodes to. Every command is (its operands fill their
fields exactly); a window class is, in the contexts in which no earlier row of the decode map of 30_encoding.md R77
takes its window. -/

namespace Sys2Proof

/-- No entry of `CTRL` equals `w` (R173 is tested first). -/
def notControl (cfg : Config) (w : Window) : Bool :=
  !cfg.ctrl.toList.contains w

/-- `CTRL[j]` is the first entry with its value: the least index is the one reported (R173). -/
def controlIsFirst (cfg : Config) (j : Fin 4) : Bool :=
  !(cfg.ctrl.toList.take j).contains cfg.ctrl[j]

/-- The guard arm of lane `l` is reachable: the configured lane is `l`, the history allows it and the pattern is no
control code (R174). -/
def guardReachable (cfg : Config) (ctx : WindowContext) (l : Fin 3) : Bool :=
  ctx.lane == l && ctx.guardOpen && notControl cfg cfg.guard[l]

/-- The data arm is reached: neither earlier arm takes the window (R175, R183). -/
def dataReachable (cfg : Config) (ctx : WindowContext) (w : Window) : Bool :=
  notControl cfg w && !(ctx.guardOpen && w == cfg.guard[ctx.lane])

/-- The instruction is the one its encoding decodes to, in the tables `cfg` and the context `ctx`. -/
def wellFormed (cfg : Config) (ctx : WindowContext) : Instr → Bool
  | .chOpen _ _ _ _ _ _ => true
  | .chPush _ _ _ _ => true
  | .chDrop _ => true
  | .chStat _ => true
  | .chRd _ _ => true
  | .bind _ _ => true
  | .unbind _ => true
  | .bindGet _ => true
  | .laneSet _ => true
  | .laneGet => true
  | .rsRise => true
  | .rsAny => true
  | .gmiiRefresh => true
  | .tmdsRefresh => true
  | .outStat _ => true
  | .outRd _ _ => true
  | .outByte _ _ => true
  | .control0 => controlIsFirst cfg 0
  | .control1 => controlIsFirst cfg 1
  | .control2 => controlIsFirst cfg 2
  | .control3 => controlIsFirst cfg 3
  | .guardLane0 => guardReachable cfg ctx 0
  | .guardLane1 => guardReachable cfg ctx 1
  | .guardLane2 => guardReachable cfg ctx 2
  | .data00 d => dataReachable cfg ctx (dataWindow false false d)
  | .data01 d => dataReachable cfg ctx (dataWindow false true d)
  | .data10 d => dataReachable cfg ctx (dataWindow true false d)
  | .data11 d => dataReachable cfg ctx (dataWindow true true d)

end Sys2Proof
end

