-- ==== Sys2Proof/Decode.lean ====
section
/-! DEFINITION. The decoders and the encoder: commands from the beats of the port (30_encoding.md R61 to R63, R67),
windows in their context (R77). -/

namespace Sys2Proof

/-! ## The command port -/

/-- Why a header is illegal (R67). -/
inductive DecodeError where
  /-- The opcode is in no row of R62. -/
  | unassignedOpcode
  /-- The opcode is assigned and a reserved field of its row does not hold the value the row asks for. -/
  | reservedField
  deriving DecidableEq, Repr

/-- The command formats of R61. -/
inductive Format where
  | N
  | P1
  | P2
  | P3
  deriving DecidableEq, Repr

/-- How many operand words follow the header (R61). -/
def Format.operandWords : Format → Nat
  | .N => 0
  | .P1 => 1
  | .P2 => 2
  | .P3 => 3

/-- The format is a function of the opcode alone; an unassigned opcode has format `N` (R61, R62). -/
def formatOf (op : Octet) : Format :=
  match op.toNat with
  | 0x01 => .P3
  | 0x02 => .P3
  | 0x05 => .P1
  | 0x31 => .P1
  | 0x32 => .P2
  | _ => .N

/-- The operand words of a command; a word its format does not have is 0 and is never read. -/
structure OperandWords where
  p0 : PortWord
  p1 : PortWord
  p2 : PortWord
  deriving DecidableEq, Repr

/-- The field `op` of a header (R61). -/
def opField (h : Beat) : Octet := h.extractLsb' 0 8
/-- The field `a` of a header (R61). -/
def aField (h : Beat) : Octet := h.extractLsb' 8 8
/-- The field `b` of a header (R61). -/
def bField (h : Beat) : BitVec 16 := h.extractLsb' 16 16
/-- The low byte of `b` (R61). -/
def bLow (h : Beat) : Octet := h.extractLsb' 16 8
/-- The high byte of `b` (R61). -/
def bHigh (h : Beat) : Octet := h.extractLsb' 24 8

/-- An operand word from its two beats, low half first (log entry 1). -/
def joinBeats (lo hi : Beat) : PortWord := hi ++ lo

/-- Take the operand words a format asks for from the beats after the header; `none` when they have not all come. -/
def takeOperands : Format → List Beat → Option (OperandWords × List Beat)
  | .N, rest => some (⟨0, 0, 0⟩, rest)
  | .P1, l0 :: h0 :: rest => some (⟨joinBeats l0 h0, 0, 0⟩, rest)
  | .P2, l0 :: h0 :: l1 :: h1 :: rest => some (⟨joinBeats l0 h0, joinBeats l1 h1, 0⟩, rest)
  | .P3, l0 :: h0 :: l1 :: h1 :: l2 :: h2 :: rest =>
    some (⟨joinBeats l0 h0, joinBeats l1 h1, joinBeats l2 h2⟩, rest)
  | .P1, _ => none
  | .P2, _ => none
  | .P3, _ => none

/-- Accept `i` when the reserved fields of its row are as the row asks. -/
def whenReserved (ok : Bool) (i : Instr) : Except DecodeError Instr :=
  if ok then .ok i else .error .reservedField

/-- The command of a header and its operand words (R62, R63), or why the header is illegal (R67). -/
def decodeCommand (h : Beat) (p : OperandWords) : Except DecodeError Instr :=
  match (opField h).toNat with
  | 0x01 => .ok (.chOpen (aField h) (bLow h) (bHigh h) p.p0 p.p1 p.p2)
  | 0x02 => whenReserved (bField h == 0) (.chPush (aField h) p.p0 p.p1 p.p2)
  | 0x03 => whenReserved (bField h == 0) (.chDrop (aField h))
  | 0x04 => whenReserved (bField h == 0) (.chStat (aField h))
  | 0x05 => whenReserved (bField h == 0) (.chRd (aField h) p.p0)
  | 0x10 => whenReserved (bHigh h == 0) (.bind (aField h) (bLow h))
  | 0x11 => whenReserved (bField h == 0) (.unbind (aField h))
  | 0x12 => whenReserved (bField h == 0) (.bindGet (aField h))
  | 0x13 => whenReserved (aField h == 0) (.laneSet (bField h))
  | 0x14 => whenReserved (aField h == 0 && bField h == 0) .laneGet
  | 0x20 => whenReserved (aField h == 0 && (bField h == 0 || bField h == 1))
      (if bField h == 0 then .rsRise else .rsAny)
  | 0x21 => whenReserved (aField h == 0 && bField h == 0) .gmiiRefresh
  | 0x22 => whenReserved (aField h == 0 && bField h == 0) .tmdsRefresh
  | 0x30 => whenReserved (bField h == 0) (.outStat (aField h))
  | 0x31 => whenReserved (bField h == 0) (.outRd (aField h) p.p0)
  | 0x32 => whenReserved (aField h == 1 && bField h == 0) (.outByte p.p0 p.p1)
  | _ => .error .unassignedOpcode

/-- What the beats on the port hold at the head. -/
inductive Decoded where
  /-- No complete command yet. -/
  | incomplete
  /-- An illegal header with the operand words of its format, and the beats after them (R67). -/
  | illegal (why : DecodeError) (rest : List Beat)
  /-- A command and the beats after it. -/
  | instr (i : Instr) (rest : List Beat)
  deriving DecidableEq, Repr

/-- Read `H`, look up the format of `H[7:0]`, take that many operand words, decode (R61). -/
def decode : List Beat → Decoded
  | [] => .incomplete
  | h :: beats =>
    match takeOperands (formatOf (opField h)) beats with
    | none => .incomplete
    | some (p, rest) =>
      match decodeCommand h p with
      | .ok i => .instr i rest
      | .error e => .illegal e rest

/-! ## The window decode map -/

/-- The least `j` with `w = CTRL[j]`, if any (R77 row 1). -/
def controlIndex (cfg : Config) (w : Window) : Option (Fin 4) :=
  if w = cfg.ctrl[0] then some 0
  else if w = cfg.ctrl[1] then some 1
  else if w = cfg.ctrl[2] then some 2
  else if w = cfg.ctrl[3] then some 3
  else none

/-- The class of a control window, by its index. -/
def controlInstr (j : Fin 4) : Instr :=
  match j with
  | 0 => .control0
  | 1 => .control1
  | 2 => .control2
  | 3 => .control3

/-- The class of a guard window, by its lane. -/
def guardInstr (l : Fin 3) : Instr :=
  match l with
  | 0 => .guardLane0
  | 1 => .guardLane1
  | 2 => .guardLane2

/-- The field `d` of a window (R72). -/
def dField (w : Window) : Octet := w.extractLsb' 0 8

/-- The class of a data window, by its bits `d9` and `d8` (R72, R176). -/
def dataInstr (w : Window) : Instr :=
  match w.getLsbD 9, w.getLsbD 8 with
  | false, false => .data00 (dField w)
  | false, true => .data01 (dField w)
  | true, false => .data10 (dField w)
  | true, true => .data11 (dField w)

/-- The window decode map of R77: the first row that applies wins, and every window has one. -/
def decodeWindow (cfg : Config) (ctx : WindowContext) (w : Window) : Instr :=
  match controlIndex cfg w with
  | some j => controlInstr j
  | none => if ctx.guardOpen && w == cfg.guard[ctx.lane] then guardInstr ctx.lane else dataInstr w

/-! ## The encoder -/

/-- A header from its fields (R61). -/
def headerWord (b : BitVec 16) (a op : Octet) : Beat := b ++ a ++ op

/-- The two beats of an operand word, low half first (log entry 1). -/
def wordBeats (p : PortWord) : List Beat := [p.extractLsb' 0 32, p.extractLsb' 32 32]

/-- What an instruction is written as: the beats of a command, or a window. -/
inductive Code where
  | command (beats : List Beat)
  | window (w : Window)
  deriving DecidableEq, Repr

/-- The encoding of an instruction: R62 and R63 for a command, R72 to R75 for a window class. -/
def encode (cfg : Config) : Instr → Code
  | .chOpen ch kind width ts st ss =>
    .command (headerWord (width ++ kind) ch 0x01 :: (wordBeats ts ++ wordBeats st ++ wordBeats ss))
  | .chPush ch o d v => .command (headerWord 0 ch 0x02 :: (wordBeats o ++ wordBeats d ++ wordBeats v))
  | .chDrop ch => .command [headerWord 0 ch 0x03]
  | .chStat ch => .command [headerWord 0 ch 0x04]
  | .chRd ch idx => .command (headerWord 0 ch 0x05 :: wordBeats idx)
  | .bind slot ch => .command [headerWord (0#8 ++ ch) slot 0x10]
  | .unbind slot => .command [headerWord 0 slot 0x11]
  | .bindGet slot => .command [headerWord 0 slot 0x12]
  | .laneSet v => .command [headerWord v 0 0x13]
  | .laneGet => .command [headerWord 0 0 0x14]
  | .rsRise => .command [headerWord 0 0 0x20]
  | .rsAny => .command [headerWord 1 0 0x20]
  | .gmiiRefresh => .command [headerWord 0 0 0x21]
  | .tmdsRefresh => .command [headerWord 0 0 0x22]
  | .outStat u => .command [headerWord 0 u 0x30]
  | .outRd u idx => .command (headerWord 0 u 0x31 :: wordBeats idx)
  | .outByte f k => .command (headerWord 0 1 0x32 :: (wordBeats f ++ wordBeats k))
  | .control0 => .window cfg.ctrl[0]
  | .control1 => .window cfg.ctrl[1]
  | .control2 => .window cfg.ctrl[2]
  | .control3 => .window cfg.ctrl[3]
  | .guardLane0 => .window cfg.guard[0]
  | .guardLane1 => .window cfg.guard[1]
  | .guardLane2 => .window cfg.guard[2]
  | .data00 d => .window (dataWindow false false d)
  | .data01 d => .window (dataWindow false true d)
  | .data10 d => .window (dataWindow true false d)
  | .data11 d => .window (dataWindow true true d)

/-! ## A word of spec/opcode_table.json -/

/-- The seven beats of a table word: the header, then operand words; bits the table does not give are 0. -/
def tableBeats (w : Nat) : List Beat :=
  [BitVec.ofNat 32 w, BitVec.ofNat 32 (w >>> 32), BitVec.ofNat 32 (w >>> 64), BitVec.ofNat 32 (w >>> 96),
   BitVec.ofNat 32 (w >>> 128), BitVec.ofNat 32 (w >>> 160), BitVec.ofNat 32 (w >>> 192)]

/-- A table row of at most two bytes is a row of the window decode. -/
def isWindowRow (nbits : Nat) : Bool := decide (nbits ≤ 16)

/-- The context a window of the table is decoded in: after a `CONTROL` symbol, with the least lane whose guard pattern
the window is (lane 0 when it is none). Rows `GUARD__lane_0` and `GUARD__lane_2` share a word in the default tables;
the word alone then reads as lane 0 (log entry 6). -/
def tableContext (cfg : Config) (w : Window) : WindowContext where
  lane := if w = cfg.guard[0] then 0 else if w = cfg.guard[1] then 1 else if w = cfg.guard[2] then 2 else 0
  last := .preamble

/-- The instruction the decoder reads from a word of spec/opcode_table.json. -/
def decodeTableWord (nbits w : Nat) : Option Instr :=
  if isWindowRow nbits then
    if w < 1024 then
      some (decodeWindow Config.default (tableContext Config.default (BitVec.ofNat 10 w)) (BitVec.ofNat 10 w))
    else none
  else
    match decode (tableBeats w) with
    | .instr i _ => some i
    | .illegal _ _ => none
    | .incomplete => none

end Sys2Proof
end

