-- ==== Sys2Proof/Machine/State.lean ====
section
/-! DEFINITION. The state of the block: the persistent pieces of 10_state.md R10, the configuration record, the
classification that stands open inside a TMDS.REFRESH, the two sides of the command port; the reset state; the reasons
a step can stop. -/

namespace Sys2Proof.Machine

/-! ## Captures -/

/-- The kind of a capture (10_state.md R11). -/
inductive Kind where
  | scalar
  | bus
  deriving DecidableEq, Repr

/-- The header of a capture: three opaque words, copied and compared only (R11, R31). -/
structure Header where
  timescale : PortWord
  startTs   : PortWord
  startSub  : PortWord
  deriving DecidableEq, Repr

/-- A sample (R12): ticks are exact integers (70_reset_and_hazards.md R219); bit `j` of `value` is bus bit `j`. -/
structure Sample where
  offset   : Int
  duration : Nat
  value    : BitVec 32
  deriving DecidableEq, Repr

/-- A capture (R11). -/
structure Capture where
  kind    : Kind
  width   : Nat
  header  : Header
  samples : List Sample
  deriving DecidableEq, Repr

/-- The capture storage of unit U0: one optional capture a channel (R13, 20_memory.md R40). -/
abbrev Memory := Vector (Option Capture) NCH

/-- A frame (R17): `start`, `end` (here `stop`) and the octets, octet 0 first. -/
structure Frame where
  start  : Int
  stop   : Int
  octets : List Octet
  deriving DecidableEq, Repr

/-- The output capture of the framer (R17). -/
structure GmiiCapture where
  header : Header
  frames : List Frame
  deriving DecidableEq, Repr

/-- A symbol (R18, 00_scope.md R9); the reserved tag 3 is no value of it (30_encoding.md R78). -/
inductive Symbol where
  | control (j : Fin 4)
  | guard
  | data (v : Octet)
  deriving DecidableEq, Repr

/-- A sample whose value slot holds a symbol (R18). -/
structure SymbolSample where
  offset   : Int
  duration : Nat
  sym      : Symbol
  deriving DecidableEq, Repr

/-- The output capture of the TMDS decoder (R18). -/
structure TmdsCapture where
  header  : Header
  symbols : List SymbolSample
  deriving DecidableEq, Repr

/-! ## The classifier's working registers -/

/-- The working registers of U4 while it walks the windows of one stream (R25, 45_tmds_classify.md R179), with its
inputs and the symbols emitted so far. -/
structure Walk where
  /-- The resampled stream `S`. -/
  stream  : List Sample
  /-- The header of the output, `hdr(CLK)` (R182). -/
  header  : Header
  /-- The lane index, read once when the walk starts (R182). -/
  lane    : Fin 3
  /-- The window cursor `i`. -/
  cursor  : Nat
  /-- The history register `last_symbol_type`. -/
  last    : LastSymbolType
  /-- The symbols emitted so far, in time order. -/
  symbols : List SymbolSample
  deriving DecidableEq, Repr

/-! ## The command port -/

/-- The status of a response (30_encoding.md R60); `Status.code` gives its number. -/
inductive Status where
  | ok
  | reject
  deriving DecidableEq, Repr

/-- A response: the status and the data words `R0`, `R1`, ... (R60, R65). -/
structure Response where
  status : Status
  data   : List PortWord
  deriving DecidableEq, Repr

/-- The state of the machine. -/
structure State where
  /-- The pattern ROM and `DEPTH`; read-only (R19, 00_scope.md R6). -/
  cfg      : Config
  /-- `chan[0..7]` (R13). -/
  chan     : Memory
  /-- `bind[0..7]` (R14). -/
  bind     : Vector (Option (Fin NCH)) NSLOT
  /-- `lane`, 0 to 2 (R15). -/
  lane     : Fin 3
  /-- `out[0]`, the resampler output (R16). -/
  outRs    : Option Capture
  /-- `out[1]`, the framer output (R17). -/
  outGmii  : Option GmiiCapture
  /-- `out[2]`, the TMDS decoder output (R18). -/
  outTmds  : Option TmdsCapture
  /-- The classification that stands open; `none` between commands (R20, R27; log entry 2). -/
  walk     : Option Walk
  /-- The beats the host has put on the port and the block has not taken (the model's own field, log entry 1). -/
  portIn   : List Beat
  /-- The answer to the last command (the model's own field, log entry 5). -/
  response : Option Response
  deriving DecidableEq, Repr

/-- The reset state under a configuration (10_state.md R33, 70_reset_and_hazards.md R210). -/
def State.resetWith (cfg : Config) : State where
  cfg      := cfg
  chan     := Vector.replicate NCH none
  bind     := Vector.replicate NSLOT none
  lane     := 0
  outRs    := none
  outGmii  := none
  outTmds  := none
  walk     := none
  portIn   := []
  response := none

/-- The machine right after reset, under the default configuration. -/
def State.reset : State := State.resetWith Config.default

/-! ## Why a step can stop -/

/-- The faults. No command raises one and no step reaches one (60_exceptions.md R201). -/
inductive Fault where
  /-- A window class executed while the open classification has no complete window at its cursor: `Window` is undefined
  for `i + 10 > N` and is never called there (44_tmds_search.md R156). Raised by the eleven window meanings only,
  never by `step`. Safe: the model stops where the spec has no behaviour. -/
  | windowPastEnd
  deriving DecidableEq, Repr

/-- The refusals. -/
inductive Refusal where
  /-- The instruction has no meaning in the model yet; raised by `exec` only. Safe. -/
  | notModelled (mnemonic : String)
  /-- A window class executed with no classification open: the registers it acts on exist only while a refresh runs
  (10_state.md R20). Raised by the eleven window meanings only, never by `step`. Safe. -/
  | noClassification
  deriving DecidableEq, Repr

/-- The outcome of a step of this machine. -/
abbrev Result := Host.Outcome State Fault Refusal

/-! ## Types the operations share -/

/-- The output units (20_memory.md R40): 0 RS, 1 GMII, 2 TMDS. -/
inductive OutUnit where
  | rs
  | gmii
  | tmds
  deriving DecidableEq, Repr

/-- The refresh error classes (60_exceptions.md R190); no state ever holds one. -/
inductive RefreshError where
  | unbound
  | type
  | short
  deriving DecidableEq, Repr

/-- The edge-selection modes of the resampler (42_resampler.md R120). -/
inductive EdgeMode where
  | rising
  | any
  deriving DecidableEq, Repr

/-- What a capture reports about itself in a STAT response (30_encoding.md R65). -/
structure Descriptor where
  kindCode : Octet
  width    : Nat
  len      : Nat
  header   : Header
  deriving DecidableEq, Repr

/-- The running best of the phase search (10_state.md R24): `best_cnt`, `best_off`, `best_code`. -/
structure Best where
  count  : Nat
  offset : Fin 10
  code   : Fin 4
  deriving DecidableEq, Repr

/-- What a step finds to do. -/
inductive Fetched where
  /-- No complete command on the port: nothing happens. -/
  | idle
  /-- The step is done in this state: an illegal header was rejected, or an open classification was installed. -/
  | done (s : State)
  /-- Execute this instruction in this state. -/
  | run (i : Instr) (s : State)
  deriving DecidableEq, Repr

end Sys2Proof.Machine
end

