-- ==== Sys2Proof/Machine/Flags.lean ====
section
/-! DEFINITION. The one history-dependent predicate of the block, `last_symbol_type` (10_state.md R26): what each symbol
writes into it, and the symbol a window gives in its context. There is no status flag or condition code. -/

namespace Sys2Proof.Machine

/-- The state after a window is a function of the symbol emitted alone (45_tmds_classify.md R178). -/
def Symbol.leaves : Symbol → LastSymbolType
  | .control _ => .preamble
  | .guard => .guard
  | .data _ => .data

/-- `DecodeData(w)` (45_tmds_classify.md R176). -/
def decodeData (w : Window) : Octet :=
  let d := dField w
  let d := if w.getLsbD 9 then d ^^^ 0xFF#8 else d
  let s := d <<< 1
  if w.getLsbD 8 then d ^^^ s else d ^^^ s ^^^ 0xFE#8

/-- The symbol of a window in its context: the map of 30_encoding.md R77 (45_tmds_classify.md R173 to R175). -/
def symbolOf (cfg : Config) (ctx : WindowContext) (w : Window) : Symbol :=
  match controlIndex cfg w with
  | some j => .control j
  | none => if ctx.guardOpen && w == cfg.guard[ctx.lane] then .guard else .data (decodeData w)

/-- The 10-bit encoding of a symbol (30_encoding.md R76). -/
def Symbol.code : Symbol → BitVec 10
  | .control j => 0#2 ++ BitVec.ofNat 8 j
  | .guard => 0x100#10
  | .data v => 2#2 ++ v

end Sys2Proof.Machine
end

