-- ==== Sys2Proof/Machine/Operands.lean ====
section
/-! DEFINITION. The operand forms of the commands (30_encoding.md R63, R64): numbers of channels, slots, units and lanes
from their fields, capture descriptors, signed ticks; the words of a response (R65); the type check of a slot
(41_config.md R111). -/

namespace Sys2Proof.Machine

/-! ## Numbers in header fields -/

/-- A channel number, `none` when the field is 8 or more. -/
def channelNumber (a : Octet) : Option (Fin NCH) :=
  if h : a.toNat < NCH then some ⟨a.toNat, h⟩ else none

/-- A slot number, `none` when the field is 8 or more. -/
def slotNumber (a : Octet) : Option (Fin NSLOT) :=
  if h : a.toNat < NSLOT then some ⟨a.toNat, h⟩ else none

/-- A lane number, `none` when the field is above 2 (41_config.md R114). -/
def laneNumber (v : BitVec 16) : Option (Fin 3) :=
  if h : v.toNat < 3 then some ⟨v.toNat, h⟩ else none

/-- An output unit, `none` when the field is above 2 (40_fifo.md R96). -/
def unitNumber (a : Octet) : Option OutUnit :=
  match a.toNat with
  | 0 => some .rs
  | 1 => some .gmii
  | 2 => some .tmds
  | _ => none

/-! ## Descriptors -/

/-- The code of a capture kind (30_encoding.md R64). -/
def Kind.code : Kind → Octet
  | .scalar => 1
  | .bus => 2

/-- The code of a derived-protocol capture, reported for `out[1]` and `out[2]` (R64). -/
def protocolCode : Octet := 4

/-- The descriptor CH.OPEN accepts (40_fifo.md R90): `SCALAR` of width 1 or `BUS` of width 1 to `BUS_WMAX`. -/
def descriptorOf (kind width : Octet) : Option (Kind × Nat) :=
  match kind.toNat with
  | 1 => if width.toNat = 1 then some (.scalar, 1) else none
  | 2 => if 1 ≤ width.toNat ∧ width.toNat ≤ BUS_WMAX then some (.bus, width.toNat) else none
  | _ => none

/-- `TypeOK(s, cap)` (41_config.md R111, the table of 10_state.md R14). -/
def typeOK (slot : Fin NSLOT) (cap : Capture) : Bool :=
  match slot with
  | 0 => cap.kind == .bus && cap.width == 8
  | 6 => cap.kind == .scalar || cap.kind == .bus
  | _ => cap.kind == .scalar && cap.width == 1

/-! ## Response words -/

/-- The code of a status: `OK` is 0, `REJECT` is 1 (30_encoding.md R60). The spec gives the numbers and no width. -/
def Status.code : Status → Nat
  | .ok => 0
  | .reject => 1

/-- A signed tick as its two's complement word (30_encoding.md R65). -/
def tickWord (t : Int) : PortWord := BitVec.ofInt 64 t

/-- A length, count or duration as a word (R65). DESIGN CHOICE (log entry 11): where `DEPTH` is unbounded the spec does not say
what a length of 2^64 or more (`len`, `nbytes`) answers in its 64-bit word; the model answers it modulo 2^64. -/
def countWord (n : Nat) : PortWord := BitVec.ofNat 64 n

/-- The descriptor word `R0` of a STAT response for a present capture (R65). -/
def descriptorWord (kindCode : Octet) (width : Nat) : PortWord :=
  0#40 ++ BitVec.ofNat 8 width ++ kindCode ++ 0#7 ++ 1#1

/-- The five words of a STAT response; all 0 for an absent capture (R65). -/
def statWords : Option Descriptor → List PortWord
  | none => [0, 0, 0, 0, 0]
  | some d => [descriptorWord d.kindCode d.width, countWord d.len, d.header.timescale, d.header.startTs, d.header.startSub]

/-- The three words of a sample (R65, R69). -/
def sampleWords (x : Sample) : List PortWord :=
  [tickWord x.offset, countWord x.duration, x.value.setWidth 64]

/-- The word of a binding: `present` in bit 0, the channel in bits 15:8 (R65). -/
def bindingWord : Option (Fin NCH) → PortWord
  | none => 0
  | some c => 0#48 ++ BitVec.ofNat 8 c ++ 1#8

end Sys2Proof.Machine
end

