-- ==== Sys2Proof/Machine/Ops.lean ====
section
/-! DEFINITION. The named operations over the state: writing one piece of it, answering a command, rejecting it, reading
and appending to captures, installing an output, and the effect of a refresh error (60_exceptions.md R191), which is the
one exception of this hardware. There is no return from it (R199). -/

namespace Sys2Proof.Machine

/-! ## Writing one piece of the state -/

/-- `chan[c] <- v`. -/
def State.putChan (s : State) (c : Fin NCH) (v : Option Capture) : State := { s with chan := s.chan.set c v }
/-- `bind[k] <- v`. -/
def State.putBind (s : State) (k : Fin NSLOT) (v : Option (Fin NCH)) : State := { s with bind := s.bind.set k v }
/-- `lane <- v`. -/
def State.putLane (s : State) (v : Fin 3) : State := { s with lane := v }
/-- `Install(0, v)` (20_memory.md R52). -/
def State.installRs (s : State) (v : Option Capture) : State := { s with outRs := v }
/-- `Install(1, v)`. -/
def State.installGmii (s : State) (v : Option GmiiCapture) : State := { s with outGmii := v }
/-- `Install(2, v)`. -/
def State.installTmds (s : State) (v : Option TmdsCapture) : State := { s with outTmds := v }
/-- Open, advance or close the classification. -/
def State.putWalk (s : State) (v : Option Walk) : State := { s with walk := v }
/-- Set what stands on the port. -/
def State.putPort (s : State) (v : List Beat) : State := { s with portIn := v }
/-- Drive a response. -/
def State.answer (s : State) (r : Response) : State := { s with response := some r }

/-- Answer `OK` with data words (30_encoding.md R65). -/
def State.ok (s : State) (data : List PortWord) : State := s.answer ⟨.ok, data⟩

/-- `reject`: the answer `REJECT`, no data words, no change of state (R66). -/
def State.reject (s : State) : State := s.answer ⟨.reject, []⟩

/-- The event `Reset` (70_reset_and_hazards.md R210): it may fall between any two steps; the pattern ROM is not affected. -/
def resetEvent (s : State) : State := State.resetWith s.cfg

/-! ## The exception of this hardware: a refresh that fails -/

/-- `Install(u, absent)`. -/
def State.installAbsent (s : State) : OutUnit → State
  | .rs => s.installRs none
  | .gmii => s.installGmii none
  | .tmds => s.installTmds none

/-- `fail E_x` in a refresh of unit `u` (60_exceptions.md R191): the output becomes absent, the answer is `OK` without
data words, nothing else changes; the class is recorded nowhere (R190). -/
def State.refreshFailed (s : State) (u : OutUnit) (_class : RefreshError) : State := (s.installAbsent u).ok []

/-! ## Reading and writing captures -/

/-- The boolean of a scalar sample: bit 0 of its value (10_state.md R12). -/
def Sample.bit (x : Sample) : Bool := x.value.getLsbD 0

/-- The tick at which a sample ends. -/
def Sample.stop (x : Sample) : Int := x.offset + x.duration

/-- `CapRead(chan[c], i)`: sample `i` of channel `c`, `none` where there is none (00_scope.md R7). -/
def State.capRead (s : State) (c : Fin NCH) (i : Nat) : Option Sample :=
  match s.chan[c] with
  | none => none
  | some cap => cap.samples[i]?

/-- `CapAppend(cap, x)`. -/
def Capture.append (cap : Capture) (x : Sample) : Capture := { cap with samples := cap.samples ++ [x] }

/-- A channel of `n` samples is full (40_fifo.md R91, 20_memory.md R48). -/
def channelFull (depth : Option Nat) (n : Nat) : Bool := depth == some n

/-- The ordering test of CH.PUSH against the last sample of the capture (R91). -/
def startsAfter (last : Option Sample) (offset : Int) : Bool :=
  match last with
  | none => true
  | some x => decide (x.stop ≤ offset)

/-- The tests of CH.PUSH on a present capture, all of R91 after the first line. -/
def pushAccepts (cfg : Config) (cap : Capture) (offset duration : Int) (value : PortWord) : Bool :=
  !channelFull cfg.depth cap.samples.length && decide (0 ≤ duration) && decide (offset + duration ≤ TMAX)
    && decide (value.toNat < 2 ^ cap.width) && startsAfter cap.samples.getLast? offset

/-! ## Reading outputs -/

/-- What `out[u]` reports about itself (40_fifo.md R96). -/
def State.outDescriptor (s : State) : OutUnit → Option Descriptor
  | .rs => s.outRs.map fun o => ⟨o.kind.code, o.width, o.samples.length, o.header⟩
  | .gmii => s.outGmii.map fun o => ⟨protocolCode, 0, o.frames.length, o.header⟩
  | .tmds => s.outTmds.map fun o => ⟨protocolCode, 0, o.symbols.length, o.header⟩

/-- What a channel reports about itself (R93). -/
def Capture.descriptor (cap : Capture) : Descriptor := ⟨cap.kind.code, cap.width, cap.samples.length, cap.header⟩

/-- The three words of a frame header (R97, 30_encoding.md R70). -/
def frameWords (f : Frame) : List PortWord := [tickWord f.start, tickWord f.stop, countWord f.octets.length]

/-- The three words of a symbol sample (R97). -/
def symbolWords (x : SymbolSample) : List PortWord :=
  [tickWord x.offset, countWord x.duration, x.sym.code.setWidth 64]

/-- Entry `i` of `out[u]` as its three words; `none` when the output is absent or `i` is past its end (R97). -/
def State.outEntry (s : State) (u : OutUnit) (i : Nat) : Option (List PortWord) :=
  match u with
  | .rs => (s.outRs.bind fun o => o.samples[i]?).map sampleWords
  | .gmii => (s.outGmii.bind fun o => o.frames[i]?).map frameWords
  | .tmds => (s.outTmds.bind fun o => o.symbols[i]?).map symbolWords

/-- Octet `k` of frame `f` of `out[1]`; `none` when there is none (R98). -/
def State.outOctet (s : State) (f k : Nat) : Option Octet :=
  (s.outGmii.bind fun o => o.frames[f]?).bind fun fr => fr.octets[k]?

/-! ## Gathering the inputs of a refresh -/

/-- The capture a slot is bound to (41_config.md R116, first loop). -/
def State.boundCapture (s : State) (slot : Fin NSLOT) : Except RefreshError Capture :=
  match s.bind[slot] with
  | none => .error .unbound
  | some c =>
    match s.chan[c] with
    | none => .error .unbound
    | some cap => .ok cap

/-- The captures of a list of slots, in order. -/
def State.boundCaptures (s : State) : List (Fin NSLOT) → Except RefreshError (List Capture)
  | [] => .ok []
  | slot :: slots =>
    match s.boundCapture slot with
    | .error e => .error e
    | .ok cap =>
      match s.boundCaptures slots with
      | .error e => .error e
      | .ok caps => .ok (cap :: caps)

/-- All the captures carry the header of the first (20_memory.md R47). -/
def sameHeaders : List Capture → Bool
  | [] => true
  | cap :: caps => caps.all fun x => x.header == cap.header

/-- `Gather(slots)` (R116). -/
def State.gather (s : State) (slots : List (Fin NSLOT)) : Except RefreshError (List Capture) :=
  match s.boundCaptures slots with
  | .error e => .error e
  | .ok caps => if (List.zipWith typeOK slots caps).all id && sameHeaders caps then .ok caps else .error .type

end Sys2Proof.Machine
end

