-- ==== Sys2Proof/Machine/Binding.lean ====
section
/-! DEFINITION. Input binding and the lane parameter (41_config.md): BIND, UNBIND, BIND.GET, LANE.SET, LANE.GET. -/

namespace Sys2Proof.Machine

/-- `BIND` (R110): the channel's current capture is validated against the slot. -/
def execBind (slot ch : Octet) (s : State) : Result :=
  match slotNumber slot, channelNumber ch with
  | some k, some c =>
    match s.chan[c] with
    | none => .next s.reject
    | some cap => if typeOK k cap then .next ((s.putBind k (some c)).ok []) else .next s.reject
  | _, _ => .next s.reject

/-- `UNBIND` (R112). -/
def execUnbind (slot : Octet) (s : State) : Result :=
  match slotNumber slot with
  | none => .next s.reject
  | some k => .next ((s.putBind k none).ok [])

/-- `BIND.GET` (R113). -/
def execBindGet (slot : Octet) (s : State) : Result :=
  match slotNumber slot with
  | none => .next s.reject
  | some k => .next (s.ok [bindingWord s.bind[k]])

/-- `LANE.SET` (R114). -/
def execLaneSet (v : BitVec 16) (s : State) : Result :=
  match laneNumber v with
  | none => .next s.reject
  | some l => .next ((s.putLane l).ok [])

/-- `LANE.GET` (R115). -/
def execLaneGet (s : State) : Result :=
  .next (s.ok [countWord s.lane])

end Sys2Proof.Machine
end

