-- ==== Sys2Proof/Machine/Resampler.lean ====
section
/-! DEFINITION. Unit U1, the clock resampler (42_resampler.md): `Resample` and the commands RS.RISE and RS.ANY. -/

namespace Sys2Proof.Machine

/-- Whether the transition from `prev` to `cur` is selected (R121, R122, R126). -/
def selects : EdgeMode → Bool → Bool → Bool
  | .rising, prev, cur => !prev && cur
  | .any, prev, cur => prev != cur

/-- Advance the data cursor to time `t` (R126): `held` is the value in effect so far, the list the data samples not
passed yet. The cursor only moves forward. -/
def advanceData (t : Int) : Option (BitVec 32) → List Sample → Option (BitVec 32) × List Sample
  | held, [] => (held, [])
  | held, d :: ds => if d.offset ≤ t then advanceData t (some d.value) ds else (held, d :: ds)

/-- The clock walk of R126 after the first clock sample: one pair of edge time and data value for each selected edge that
has a data sample at or before it (R123, R124). `prev`, `held` and the rest of the data are the working registers of
10_state.md R22. -/
def resampleFrom (mode : EdgeMode) : Bool → Option (BitVec 32) → List Sample → List Sample → List (Int × BitVec 32)
  | _, _, _, [] => []
  | prev, held, ds, c :: cs =>
    if selects mode prev c.bit then
      match advanceData c.offset held ds with
      | (some v, ds') => (c.offset, v) :: resampleFrom mode c.bit (some v) ds' cs
      | (none, ds') => resampleFrom mode c.bit none ds' cs
    else resampleFrom mode c.bit held ds cs

/-- The durations of the result (R127): the time to the next sample, and `LAST_DUR` for the last. -/
def withDurations : List (Int × BitVec 32) → List Sample
  | [] => []
  | [(t, v)] => [⟨t, LAST_DUR, v⟩]
  | (t, v) :: (t', v') :: rest => ⟨t, (t' - t).toNat, v⟩ :: withDurations ((t', v') :: rest)

/-- The edges and values of `Resample`, without durations; the first clock sample is never an edge (R121, R129). -/
def resampleEdges (mode : EdgeMode) (d : List Sample) : List Sample → List (Int × BitVec 32)
  | [] => []
  | c :: cs => resampleFrom mode c.bit none d cs

/-- `Resample(mode, D, C)` (R126). -/
def resample (mode : EdgeMode) (d c : List Sample) : List Sample := withDurations (resampleEdges mode d c)

/-- What RS.RISE and RS.ANY compute (R131, R132): slot 6 is the data, slot 7 the clock. -/
def State.rsOutput (s : State) (mode : EdgeMode) : Except RefreshError Capture :=
  match s.gather [6, 7] with
  | .ok [d, c] => .ok ⟨d.kind, d.width, c.header, resample mode d.samples c.samples⟩
  | .ok _ => .error .unbound
  | .error e => .error e

/-- The refresh of the stand-alone resampler in a mode. -/
def refreshRs (mode : EdgeMode) (s : State) : State :=
  match s.rsOutput mode with
  | .ok cap => (s.installRs (some cap)).ok []
  | .error e => s.refreshFailed .rs e

/-- `RS.RISE` (R131). -/
def execRsRise (s : State) : Result := .next (refreshRs .rising s)

/-- `RS.ANY` (R132). -/
def execRsAny (s : State) : Result := .next (refreshRs .any s)

end Sys2Proof.Machine
end

