-- ==== Sys2Proof/Machine/Search.lean ====
section
/-! DEFINITION. Unit U3, the TMDS phase-alignment searcher (44_tmds_search.md): `Window` and `PhaseSearch`. -/

namespace Sys2Proof.Machine

/-- The bit of the stream at an index. -/
def bitAt (st : List Sample) (n : Nat) : Bool :=
  match st[n]? with
  | some x => x.bit
  | none => false

/-- `Window(S, i)` (R156): bit `k` is `S[i + k]`. It is used only where `i + 10 <= N`. -/
def windowAt (st : List Sample) (i : Nat) : Window :=
  BitVec.ofBool (bitAt st (i + 9)) ++ BitVec.ofBool (bitAt st (i + 8)) ++ BitVec.ofBool (bitAt st (i + 7))
    ++ BitVec.ofBool (bitAt st (i + 6)) ++ BitVec.ofBool (bitAt st (i + 5)) ++ BitVec.ofBool (bitAt st (i + 4))
    ++ BitVec.ofBool (bitAt st (i + 3)) ++ BitVec.ofBool (bitAt st (i + 2)) ++ BitVec.ofBool (bitAt st (i + 1))
    ++ BitVec.ofBool (bitAt st i)

/-- The windows at `i`, `i + 10`, ... that lie wholly inside the stream (R157); the first argument bounds the number of
turns, and the length of the stream is always enough. -/
def stridesFrom (st : List Sample) : Nat → Nat → List Window
  | 0, _ => []
  | n + 1, i => if i + WIN ≤ st.length then windowAt st i :: stridesFrom st n (i + WIN) else []

/-- The windows of phase `p`. -/
def strides (st : List Sample) (p : Fin 10) : List Window := stridesFrom st st.length p

/-- `cnt[j]` at the end of phase `p` (R158). -/
def matchCount (cfg : Config) (st : List Sample) (p : Fin 10) (j : Fin 4) : Nat := (strides st p).count cfg.ctrl[j]

/-- Compare one counter with the running best, strictly (R159). -/
def Best.consider (b : Best) (count : Nat) (p : Fin 10) (j : Fin 4) : Best :=
  if b.count < count then ⟨count, p, j⟩ else b

/-- The counters of one phase, code 0 first. -/
def Best.phase (b : Best) (cfg : Config) (st : List Sample) (p : Fin 10) : Best :=
  (List.finRange 4).foldl (fun b j => b.consider (matchCount cfg st p j) p j) b

/-- `PhaseSearch(S)` (R161), from the start values of R160. -/
def phaseSearch (cfg : Config) (st : List Sample) : Best :=
  (List.finRange 10).foldl (fun b p => b.phase cfg st p) ⟨0, 0, 0⟩

end Sys2Proof.Machine
end

