-- ==== Sys2Proof/Machine/Classifier.lean ====
section
/-! DEFINITION. Unit U4, the TMDS symbol classifier and bit-order corrector (45_tmds_classify.md): the walk over the
windows, the eleven window classes as instructions, and the command TMDS.REFRESH. -/

namespace Sys2Proof.Machine

/-! ## The walk -/

/-- A complete window stands at the cursor: `i + 10 <= N` (R171). -/
def Walk.hasWindow (u : Walk) : Bool := decide (u.cursor + WIN ≤ u.stream.length)

/-- The window at the cursor, the register `w` (10_state.md R25). -/
def Walk.window (u : Walk) : Window := windowAt u.stream u.cursor

/-- The context of that window. -/
def Walk.context (u : Walk) : WindowContext := ⟨u.lane, u.last⟩

/-- The offset of sample `n` of the stream. -/
def offsetAt (st : List Sample) (n : Nat) : Int :=
  match st[n]? with
  | some x => x.offset
  | none => 0

/-- The tick `t1` at which the symbol of the window at `i` ends (R172): the next window's first sample, which need only
exist as a sample, or else the end of the window's own last sample. -/
def symbolStop (st : List Sample) (i : Nat) : Int :=
  match st[i + WIN]? with
  | some x => x.offset
  | none =>
    match st[i + 9]? with
    | some x => x.stop
    | none => 0

/-- Emit the symbol of the window at the cursor (R172 to R175): append it with its time span, set `last_symbol_type`
(R178), advance the cursor by ten. -/
def Walk.emit (u : Walk) (sym : Symbol) : Walk :=
  { u with
    symbols := u.symbols ++ [⟨offsetAt u.stream u.cursor, (symbolStop u.stream u.cursor - offsetAt u.stream u.cursor).toNat, sym⟩]
    last := sym.leaves
    cursor := u.cursor + WIN }

/-- One turn of the loop of `Classify` (R179). -/
def Walk.advance (cfg : Config) (u : Walk) : Walk := u.emit (symbolOf cfg u.context u.window)

/-- The loop of `Classify` (R179): turns until no complete window is left; the first argument bounds the number of
turns, and the length of the stream is always enough. -/
def Walk.turns (cfg : Config) : Nat → Walk → Walk
  | 0, u => u
  | n + 1, u => if u.hasWindow then (u.advance cfg).turns cfg n else u

/-- The walk with every complete window classified. -/
def Walk.finish (cfg : Config) (u : Walk) : Walk := u.turns cfg u.stream.length

/-- The output capture a finished walk leaves (R182). -/
def Walk.capture (u : Walk) : TmdsCapture := ⟨u.header, u.symbols⟩

/-! ## TMDS.REFRESH -/

/-- The stages of TMDS.REFRESH before U4 (R182): gather slots 4 and 5, resample on both edges, test the length, search
the phase, load U4's registers (10_state.md R25). -/
def State.startWalk (s : State) : Except RefreshError Walk :=
  match s.gather [4, 5] with
  | .ok [data, clk] =>
    let st := resample .any data.samples clk.samples
    if st.length < MIN_TMDS then .error .short
    else .ok ⟨st, clk.header, s.lane, (phaseSearch s.cfg st).offset, .data, []⟩
  | .ok _ => .error .unbound
  | .error e => .error e

/-- Install what the walk has classified and answer `OK`, the last line of R182. -/
def State.installWalk (s : State) (u : Walk) : State := (s.installTmds (some u.capture)).ok []

/-- `TMDS.REFRESH` (R182), one atomic step. -/
def execTmdsRefresh (s : State) : Result :=
  match s.startWalk with
  | .ok u => .next (s.installWalk (u.finish s.cfg))
  | .error e => .next (s.refreshFailed .tmds e)

/-! ## The window classes -/

/-- Run a window class in the open classification: `f` gives the symbol from the configuration and the context. -/
def onWindow (f : Config → WindowContext → Symbol) (s : State) : Result :=
  match s.walk with
  | none => .refused .noClassification
  | some u => if u.hasWindow then .next (s.putWalk (some (u.emit (f s.cfg u.context)))) else .fault .windowPastEnd

/-- The control arm: it is taken in any context (R173). -/
def controlArm (j : Fin 4) : State → Result := onWindow fun _ _ => .control j

/-- The guard arm of lane `l` (R174): taken only when `lane = l` and the symbol before was `CONTROL` or `GUARD`;
otherwise the pattern goes to the data arm. -/
def guardArm (l : Fin 3) : State → Result :=
  onWindow fun cfg ctx => if ctx.lane = l ∧ ctx.guardOpen then .guard else .data (decodeData cfg.guard[l])

/-- The data arm (R175, R176). -/
def dataArm (d9 d8 : Bool) (d : Octet) : State → Result := onWindow fun _ _ => .data (decodeData (dataWindow d9 d8 d))

/-- `CONTROL(0)` (R173). -/
def execControl0 (s : State) : Result := controlArm 0 s
/-- `CONTROL(1)` (R173). -/
def execControl1 (s : State) : Result := controlArm 1 s
/-- `CONTROL(2)` (R173). -/
def execControl2 (s : State) : Result := controlArm 2 s
/-- `CONTROL(3)` (R173). -/
def execControl3 (s : State) : Result := controlArm 3 s
/-- `GUARD` on lane 0 (R174). -/
def execGuardLane0 (s : State) : Result := guardArm 0 s
/-- `GUARD` on lane 1 (R174). -/
def execGuardLane1 (s : State) : Result := guardArm 1 s
/-- `GUARD` on lane 2 (R174). -/
def execGuardLane2 (s : State) : Result := guardArm 2 s
/-- `DATA` with `d9 = 0`, `d8 = 0` (R175). -/
def execData00 (d : Octet) (s : State) : Result := dataArm false false d s
/-- `DATA` with `d9 = 0`, `d8 = 1` (R175). -/
def execData01 (d : Octet) (s : State) : Result := dataArm false true d s
/-- `DATA` with `d9 = 1`, `d8 = 0` (R175). -/
def execData10 (d : Octet) (s : State) : Result := dataArm true false d s
/-- `DATA` with `d9 = 1`, `d8 = 1` (R175). -/
def execData11 (d : Octet) (s : State) : Result := dataArm true true d s

end Sys2Proof.Machine
end

