-- ==== Sys2Proof/Machine/Fifo.lean ====
section
/-! DEFINITION. Unit U0, the multi-channel capture sample FIFO (40_fifo.md): CH.OPEN, CH.PUSH, CH.DROP, CH.STAT, CH.RD,
OUT.STAT, OUT.RD, OUT.BYTE. -/

namespace Sys2Proof.Machine

/-- `CH.OPEN` (R90): a new, empty capture replaces whatever the channel held. -/
def execChOpen (ch kind width : Octet) (timescale startTs startSub : PortWord) (s : State) : Result :=
  match channelNumber ch, descriptorOf kind width with
  | some c, some (k, w) => .next ((s.putChan c (some ⟨k, w, ⟨timescale, startTs, startSub⟩, []⟩)).ok [])
  | _, _ => .next s.reject

/-- `CH.PUSH` (R91): one sample at the tail; offset and duration are read as signed words. -/
def execChPush (ch : Octet) (offset duration value : PortWord) (s : State) : Result :=
  match channelNumber ch with
  | none => .next s.reject
  | some c =>
    match s.chan[c] with
    | none => .next s.reject
    | some cap =>
      if pushAccepts s.cfg cap offset.toInt duration.toInt value then
        .next ((s.putChan c (some (cap.append ⟨offset.toInt, duration.toNat, value.setWidth 32⟩))).ok [])
      else .next s.reject

/-- `CH.DROP` (R92). -/
def execChDrop (ch : Octet) (s : State) : Result :=
  match channelNumber ch with
  | none => .next s.reject
  | some c => .next ((s.putChan c none).ok [])

/-- `CH.STAT` (R93). -/
def execChStat (ch : Octet) (s : State) : Result :=
  match channelNumber ch with
  | none => .next s.reject
  | some c => .next (s.ok (statWords (s.chan[c].map Capture.descriptor)))

/-- `CH.RD` (R94). -/
def execChRd (ch : Octet) (idx : PortWord) (s : State) : Result :=
  match channelNumber ch with
  | none => .next s.reject
  | some c =>
    match s.capRead c idx.toNat with
    | none => .next s.reject
    | some x => .next (s.ok (sampleWords x))

/-- `OUT.STAT` (R96). -/
def execOutStat (unit : Octet) (s : State) : Result :=
  match unitNumber unit with
  | none => .next s.reject
  | some u => .next (s.ok (statWords (s.outDescriptor u)))

/-- `OUT.RD` (R97). -/
def execOutRd (unit : Octet) (idx : PortWord) (s : State) : Result :=
  match unitNumber unit with
  | none => .next s.reject
  | some u =>
    match s.outEntry u idx.toNat with
    | none => .next s.reject
    | some ws => .next (s.ok ws)

/-- `OUT.BYTE` (R98). -/
def execOutByte (frame k : PortWord) (s : State) : Result :=
  match s.outOctet frame.toNat k.toNat with
  | none => .next s.reject
  | some o => .next (s.ok [o.setWidth 64])

end Sys2Proof.Machine
end

