-- ==== Sys2Proof/Machine/Framer.lean ====
section
/-! DEFINITION. Unit U2, the enable-gated byte framer (43_framer.md): `Pack8`, `Frame` and the command GMII.REFRESH. -/

namespace Sys2Proof.Machine

/-- `Pack8(v)`: the low eight bits of the value, bus bit 0 lowest (R140). -/
def pack8 (v : BitVec 32) : Octet := v.extractLsb' 0 8

/-- Add a sample of a run to the open frame, or open one with it (R143, R144). -/
def extendFrame (x : Sample) : Option Frame → Frame
  | none => ⟨x.offset, x.stop, [pack8 x.value]⟩
  | some f => ⟨f.start, x.stop, f.octets ++ [pack8 x.value]⟩

/-- `Frame` from a position on (R143): the frame of the run that is open there, if any, and the samples of data and
enable that are left. The open frame is `in_frame`, `f_start`, `f_end`, `f_octets` of 10_state.md R23. -/
def frameFrom : Option Frame → List (Sample × Sample) → List Frame
  | none, [] => []
  | some f, [] => [f]
  | op, (d, e) :: rest =>
    if e.bit then frameFrom (some (extendFrame d op)) rest
    else op.toList ++ frameFrom none rest

/-- `Frame(RD, RE)` (R143). The spec defines it on streams of equal length alone (90_conflicts.md C5), and GMII.REFRESH calls
it on no other (R148). DESIGN CHOICE (log entry 10): on streams of unequal length it pairs the samples up to the shorter
stream's end, a value no run sees. -/
def frames (rd re : List Sample) : List Frame := frameFrom none (rd.zip re)

/-- What GMII.REFRESH computes (R147, R148): slots 0 to 3 are data, clock, enable and error. The error stream counts by
its length alone (R145). -/
def State.gmiiOutput (s : State) : Except RefreshError GmiiCapture :=
  match s.gather [0, 1, 2, 3] with
  | .ok [data, clk, en, er] =>
    let rd := resample .rising data.samples clk.samples
    let re := resample .rising en.samples clk.samples
    let rx := resample .rising er.samples clk.samples
    if rd.length = re.length ∧ re.length = rx.length then .ok ⟨clk.header, frames rd re⟩ else .error .type
  | .ok _ => .error .unbound
  | .error e => .error e

/-- `GMII.REFRESH` (R147). -/
def execGmiiRefresh (s : State) : Result :=
  match s.gmiiOutput with
  | .ok cap => .next ((s.installGmii (some cap)).ok [])
  | .error e => .next (s.refreshFailed .gmii e)

end Sys2Proof.Machine
end

