-- ==== Sys2Proof/Machine/Dispatch.lean ====
section
/-! DEFINITION. One arm per instruction. -/

namespace Sys2Proof.Machine

/-- The meaning of an instruction. -/
def exec (i : Instr) (s : State) : Host.Outcome State Fault Refusal :=
  match i with
  | .chOpen ch kind width timescale startTs startSub => Sys2Proof.Machine.execChOpen ch kind width timescale startTs startSub s
  | .chPush ch offset duration value => Sys2Proof.Machine.execChPush ch offset duration value s
  | .chDrop ch => Sys2Proof.Machine.execChDrop ch s
  | .chStat ch => Sys2Proof.Machine.execChStat ch s
  | .chRd ch idx => Sys2Proof.Machine.execChRd ch idx s
  | .bind slot ch => Sys2Proof.Machine.execBind slot ch s
  | .unbind slot => Sys2Proof.Machine.execUnbind slot s
  | .bindGet slot => Sys2Proof.Machine.execBindGet slot s
  | .laneSet v => Sys2Proof.Machine.execLaneSet v s
  | .laneGet => Sys2Proof.Machine.execLaneGet s
  | .rsRise => Sys2Proof.Machine.execRsRise s
  | .rsAny => Sys2Proof.Machine.execRsAny s
  | .gmiiRefresh => Sys2Proof.Machine.execGmiiRefresh s
  | .tmdsRefresh => Sys2Proof.Machine.execTmdsRefresh s
  | .outStat unit => Sys2Proof.Machine.execOutStat unit s
  | .outRd unit idx => Sys2Proof.Machine.execOutRd unit idx s
  | .outByte frame k => Sys2Proof.Machine.execOutByte frame k s
  | .control0 => Sys2Proof.Machine.execControl0 s
  | .control1 => Sys2Proof.Machine.execControl1 s
  | .control2 => Sys2Proof.Machine.execControl2 s
  | .control3 => Sys2Proof.Machine.execControl3 s
  | .guardLane0 => Sys2Proof.Machine.execGuardLane0 s
  | .guardLane1 => Sys2Proof.Machine.execGuardLane1 s
  | .guardLane2 => Sys2Proof.Machine.execGuardLane2 s
  | .data00 d => Sys2Proof.Machine.execData00 d s
  | .data01 d => Sys2Proof.Machine.execData01 d s
  | .data10 d => Sys2Proof.Machine.execData10 d s
  | .data11 d => Sys2Proof.Machine.execData11 d s

end Sys2Proof.Machine
end

