-- ==== Sys2Proof/Machine/Fetch.lean ====
section
/-! DEFINITION. What a step finds to do, and where a table word is placed for it. -/

namespace Sys2Proof.Machine

/-- What an open classification does next: the window at its cursor, decoded in its context; when none is left, the
output is installed and the refresh has answered (45_tmds_classify.md R179, R182). -/
def fetchWindow (s : State) (u : Walk) : Fetched :=
  if u.hasWindow then .run (decodeWindow s.cfg u.context u.window) s
  else .done ((s.installWalk u).putWalk none)

/-- What an idle block does next: the command at the head of the port, its words taken (30_encoding.md R61); an illegal
header is answered `REJECT`, its words taken too (R67); with no complete command there is nothing to do. -/
def fetchCommand (s : State) : Fetched :=
  match decode s.portIn with
  | .incomplete => .idle
  | .illegal _ rest => .done (s.putPort rest).reject
  | .instr i rest => .run i (s.putPort rest)

/-- The port takes no command while a refresh runs (20_memory.md R50). -/
def fetch (s : State) : Fetched :=
  match s.walk with
  | some u => fetchWindow s u
  | none => fetchCommand s

/-- Ten samples, one a tick, that carry the bits of a window, earliest first. -/
def windowStream (w : Window) : List Sample :=
  (List.range 10).map fun (k : Nat) => ⟨(k : Int), 1, (BitVec.ofBool (w.getLsbD k)).setWidth 32⟩

/-- An open classification whose next window is `w`, in the context the table word is decoded in. -/
def windowWalk (cfg : Config) (w : Window) : Walk where
  stream  := windowStream w
  header  := ⟨0, 0, 0⟩
  lane    := (tableContext cfg w).lane
  cursor  := 0
  last    := (tableContext cfg w).last
  symbols := []

/-- Place a word of spec/opcode_table.json where the next step fetches it: a window in an open classification, a command
on the port. -/
def placeTableWord (s : State) (nbits w : Nat) : State :=
  if isWindowRow nbits then s.putWalk (some (windowWalk s.cfg (BitVec.ofNat 10 w)))
  else (s.putWalk none).putPort (tableBeats w)

end Sys2Proof.Machine
end

