-- ==== Sys2Proof/Safety.lean ====
section
/-! DEFINITION. The terms the statements use: what the spec says of every stored capture and output at all times, and
reference readings of its algorithms, written from the prose of the rules and not from the machine. -/

namespace Sys2Proof.Machine

/-! ## Answers -/

/-- The state after a command that changed nothing and was answered with `r`. -/
def State.answered (s : State) (status : Status) (data : List PortWord) : State :=
  { s with response := some ⟨status, data⟩ }

/-- The command `i` is the header `h` and the operand words `ps` (30_encoding.md R61 to R63): its format asks for that many
words, and these words followed by anything are read as `i`. That an operand word is two beats, low half first, is the model's
choice (log entry 1). -/
def CommandEncoding (i : Instr) (h : Beat) (ps : List PortWord) : Prop :=
  (formatOf (h.extractLsb' 0 8)).operandWords = ps.length ∧
    ∀ rest : List Beat, decode (h :: (ps.flatMap wordBeats ++ rest)) = .instr i rest

/-- The capture a slot is bound to, read through the binding. -/
def State.slotCapture (s : State) (k : Fin NSLOT) : Option Capture := s.bind[k].bind fun c => s.chan[c]

/-- The captures `caps` feed the slots of a decoder and pass every check of 41_config.md R116: each slot is bound to a
channel that holds its capture, each capture has the kind and width its slot requires (R111), all headers are equal
(20_memory.md R47). -/
def State.Inputs (s : State) (slots : List (Fin NSLOT)) (caps : List Capture) : Prop :=
  slots.map s.slotCapture = caps.map some ∧ (∀ p ∈ slots.zip caps, typeOK p.1 p.2 = true) ∧
    ∀ x ∈ caps, ∀ y ∈ caps, x.header = y.header

/-- The four refresh commands. -/
def isRefresh : Instr → Bool
  | .rsRise => true
  | .rsAny => true
  | .gmiiRefresh => true
  | .tmdsRefresh => true
  | _ => false

/-- A host command, as against a window class (30_encoding.md R62, R77). -/
def isCommand (i : Instr) : Bool :=
  match encode Config.default i with
  | .command _ => true
  | .window _ => false

/-! ## Stored captures -/

/-- A legal descriptor (40_fifo.md R90). -/
def legalDescriptor : Kind → Nat → Bool
  | .scalar, w => w == 1
  | .bus, w => decide (1 ≤ w ∧ w ≤ BUS_WMAX)

/-- A length that `DEPTH` admits (20_memory.md R48). -/
def withinDepth : Option Nat → Nat → Bool
  | none, _ => true
  | some d, n => decide (n ≤ d)

/-- A span of ticks inside the tick range, ending at `limit` at the latest (10_state.md R12, 70_reset_and_hazards.md R219). -/
def spanFits (limit start stop : Int) : Bool := decide (-(2 ^ 63) ≤ start ∧ start ≤ stop ∧ stop ≤ limit)

/-- The ordering invariant of 10_state.md R12: `offset[i] + duration[i] <= offset[i+1]`. -/
def ordered : List Sample → Bool
  | x :: y :: rest => decide (x.stop ≤ y.offset) && ordered (y :: rest)
  | _ => true

/-- A sample of a capture of this width (R12). -/
def Sample.fits (limit : Int) (width : Nat) (x : Sample) : Bool :=
  spanFits limit x.offset x.stop && decide (x.value.toNat < 2 ^ width)

/-- What R12 says of a capture at all times, with the bounds on its width and length (R11). -/
def Capture.wf (depth : Option Nat) (limit : Int) (cap : Capture) : Bool :=
  legalDescriptor cap.kind cap.width && cap.samples.all (Sample.fits limit cap.width) && ordered cap.samples
    && withinDepth depth cap.samples.length

/-- The capture storage is well-formed: every present capture is (40_fifo.md R99). -/
def Memory.wf (depth : Option Nat) (m : Memory) : Bool :=
  m.toList.all fun o =>
    match o with
    | none => true
    | some cap => cap.wf depth TMAX

/-! ## Outputs -/

/-- Frames do not overlap in time (43_framer.md R146). -/
def framesOrdered : List Frame → Bool
  | f :: g :: rest => decide (f.stop ≤ g.start) && framesOrdered (g :: rest)
  | _ => true

/-- A frame has at least one octet (10_state.md R17) and a span inside the tick range. -/
def Frame.wf (f : Frame) : Bool := !f.octets.isEmpty && spanFits (TMAX + 1) f.start f.stop

/-- What holds of `out[1]` (R17, R32, R146). -/
def GmiiCapture.wf (depth : Option Nat) (o : GmiiCapture) : Bool :=
  o.frames.all Frame.wf && framesOrdered o.frames && withinDepth depth o.frames.length

/-- The end of one symbol is the offset of the next (45_tmds_classify.md R180). -/
def contiguous : List SymbolSample → Bool
  | x :: y :: rest => decide (x.offset + x.duration = y.offset) && contiguous (y :: rest)
  | _ => true

/-- The guard reachability law (R181) from a history on: no `GUARD` where the history is `DATA`. -/
def guardLawful : LastSymbolType → List SymbolSample → Bool
  | _, [] => true
  | prev, x :: rest => (x.sym != .guard || prev != .data) && guardLawful x.sym.leaves rest

/-- Symbol spans inside the tick range. -/
def symbolsFit (l : List SymbolSample) : Bool := l.all fun x => spanFits (TMAX + 1) x.offset (x.offset + x.duration)

/-- What holds of `out[2]`: never empty (60_exceptions.md R195), contiguous (R180), lawful (R181), within the depth (R32). -/
def TmdsCapture.wf (depth : Option Nat) (o : TmdsCapture) : Bool :=
  !o.symbols.isEmpty && contiguous o.symbols && guardLawful .data o.symbols && symbolsFit o.symbols
    && withinDepth depth o.symbols.length

/-- The history register after a list of symbols: `DATA` before the first (10_state.md R25), then what the last left. -/
def historyAfter (l : List SymbolSample) : LastSymbolType :=
  match l.getLast? with
  | none => .data
  | some x => x.sym.leaves

/-- What holds of an open classification: an ordered stream, lawful symbols that end where the next window starts, the
history of the last of them, and a cursor inside the stream that has passed ten bits for each symbol. -/
def Walk.wf (depth : Option Nat) (u : Walk) : Bool :=
  u.stream.all (fun x => spanFits (TMAX + 1) x.offset x.stop) && ordered u.stream && withinDepth depth u.stream.length
    && contiguous u.symbols && guardLawful .data u.symbols && symbolsFit u.symbols
    && u.last == historyAfter u.symbols
    && decide (10 * u.symbols.length ≤ u.cursor ∧ u.cursor ≤ u.stream.length)
    && (!u.symbols.isEmpty || u.hasWindow)
    && (match u.symbols.getLast? with
        | none => true
        | some x => decide (u.stream.length ≤ u.cursor) || decide (x.offset + x.duration = offsetAt u.stream u.cursor))

/-! ## The invariants of the machine -/

/-- The capture storage holds what R12 and R99 promise. -/
def State.StorageSound (s : State) : Prop := Memory.wf s.cfg.depth s.chan = true

/-- `out[0]` is a capture of R12 and R16. -/
def State.RsSound (s : State) : Prop := ∀ cap, s.outRs = some cap → cap.wf s.cfg.depth (TMAX + 1) = true

/-- `out[1]` is as R17 and R146 say. -/
def State.GmiiSound (s : State) : Prop := ∀ o, s.outGmii = some o → o.wf s.cfg.depth = true

/-- `out[2]` is as R18, R180, R181 and R195 say, and so is what an open classification has built. -/
def State.TmdsSound (s : State) : Prop :=
  (∀ o, s.outTmds = some o → o.wf s.cfg.depth = true) ∧ (∀ u, s.walk = some u → u.wf s.cfg.depth = true)

/-! ## Reference readings of the algorithms -/

/-- Offsets are sorted. -/
def SortedOffsets (l : List Sample) : Prop := l.Pairwise fun x y => x.offset ≤ y.offset

/-- The times of the selected transitions of a clock: consecutive pairs of samples (42_resampler.md R121, R122). -/
def edgeTimes (mode : EdgeMode) (c : List Sample) : List Int :=
  ((c.zip c.tail).filter fun p =>
    match mode with
    | .rising => p.1.bit == false && p.2.bit == true
    | .any => p.1.bit != p.2.bit).map fun p => p.2.offset

/-- The data value in effect at `t`: of the sample with the greatest index whose offset is at most `t` (R123); none when
there is no such sample (R124). -/
def valueInEffect (d : List Sample) (t : Int) : Option (BitVec 32) :=
  ((d.filter fun x => decide (x.offset ≤ t)).getLast?).map fun x => x.value

/-- The maximal runs of asserted enable, each the list of its pairs of data and enable samples (43_framer.md R142). Where the
streams are of unequal length, which the spec leaves undefined (90_conflicts.md C5), pairs up to the shorter stream's end
count: the model's choice (log entry 10). -/
def enabledRuns (rd re : List Sample) : List (List (Sample × Sample)) :=
  ((rd.zip re).splitBy fun a b => a.2.bit == b.2.bit).filter fun run => run.all fun p => p.2.bit

/-- The frame of a run: the start of its first data sample, the end of its last, one octet a sample (R143, R144). -/
def frameOfRun (run : List (Sample × Sample)) : Option Frame :=
  match run.head?, run.getLast? with
  | some a, some b => some ⟨a.1.offset, b.1.offset + b.1.duration, run.map fun p => p.1.value.setWidth 8⟩
  | _, _ => none

/-- `EncodeData(v, d9, d8)` (45_tmds_classify.md R177); the block has no encoder. -/
def encodeData (v : Octet) (d9 d8 : Bool) : Window :=
  let u := if d8 then v else v ^^^ 0xFE#8
  let q0 := u.getLsbD 0
  let q1 := u.getLsbD 1 ^^ q0
  let q2 := u.getLsbD 2 ^^ q1
  let q3 := u.getLsbD 3 ^^ q2
  let q4 := u.getLsbD 4 ^^ q3
  let q5 := u.getLsbD 5 ^^ q4
  let q6 := u.getLsbD 6 ^^ q5
  let q7 := u.getLsbD 7 ^^ q6
  let q : Octet := BitVec.ofBool q7 ++ BitVec.ofBool q6 ++ BitVec.ofBool q5 ++ BitVec.ofBool q4
    ++ BitVec.ofBool q3 ++ BitVec.ofBool q2 ++ BitVec.ofBool q1 ++ BitVec.ofBool q0
  dataWindow d9 d8 (if d9 then q ^^^ 0xFF#8 else q)

/-- The rows of the opcode map of 30_encoding.md R62, as mask and match over the header. -/
def opcodeRows : List (Beat × Beat) :=
  [(0x000000FF, 0x00000001), (0xFFFF00FF, 0x00000002), (0xFFFF00FF, 0x00000003), (0xFFFF00FF, 0x00000004),
   (0xFFFF00FF, 0x00000005), (0xFF0000FF, 0x00000010), (0xFFFF00FF, 0x00000011), (0xFFFF00FF, 0x00000012),
   (0x0000FFFF, 0x00000013), (0xFFFFFFFF, 0x00000014), (0xFFFFFFFF, 0x00000020), (0xFFFFFFFF, 0x00010020),
   (0xFFFFFFFF, 0x00000021), (0xFFFFFFFF, 0x00000022), (0xFFFF00FF, 0x00000030), (0xFFFF00FF, 0x00000031),
   (0xFFFFFFFF, 0x00000132)]

end Sys2Proof.Machine
end

