-- ==== Sys2Proof/Certificates/Slice0/Obligations.lean ====
section
/-! DEFINITION. The statements for the provers. -/

open Sys2Proof Sys2Proof.Machine

/-! ## Encodings -/

/-- Decode and encode agree on every command: the beats written from 30_encoding.md R61 to R63, followed by anything,
are read as the command, whatever its operands. An operand word is two beats, low half first: the model's choice (log entry 1). -/
def Obligations.EncodedCommandsDecodeToThemselves : Prop :=
  ∀ (cfg : Config) (i : Instr) (beats rest : List Beat),
    encode cfg i = .command beats → decode (beats ++ rest) = .instr i rest

/-- What the port decoder accepts is exactly an encoding: no two beat sequences are one command, and no bit is dropped.
That an operand word is two beats, low half first, is the model's choice (log entry 1): R61 gives words, not beats. -/
def Obligations.DecodedCommandsReencode : Prop :=
  ∀ (cfg : Config) (beats rest : List Beat) (i : Instr),
    decode beats = .instr i rest → ∃ words, encode cfg i = .command words ∧ beats = words ++ rest

/-- A header is legal exactly when it matches a row of the opcode map, `H & mask = match` (30_encoding.md R62). -/
def Obligations.HeaderIsLegalExactlyWhenARowMatches : Prop :=
  ∀ (h : Beat) (p : OperandWords),
    (∃ i, decodeCommand h p = .ok i) ↔ ∃ row ∈ opcodeRows, h &&& row.1 = row.2

/-- Decode and encode agree on every window class, for all tables and contexts: a class that is well-formed in a context
is what its own window decodes to there. -/
def Obligations.WellFormedWindowsDecodeToThemselves : Prop :=
  ∀ (cfg : Config) (ctx : WindowContext) (i : Instr) (w : Window),
    encode cfg i = .window w → wellFormed cfg ctx i = true → decodeWindow cfg ctx w = i

/-- Every one of the 1024 windows is legal in every context: it decodes to a well-formed class whose window it is. -/
def Obligations.EveryWindowDecodesToAWellFormedClass : Prop :=
  ∀ (cfg : Config) (ctx : WindowContext) (w : Window),
    encode cfg (decodeWindow cfg ctx w) = .window w ∧ wellFormed cfg ctx (decodeWindow cfg ctx w) = true

/-- Headers of the spec's vectors (95_test_vectors.md L2-0) and its other examples (30_encoding.md R80, 40_fifo.md R90, R97, R98)
decode to what the spec says they are. The operand words of CH.OPEN, CH.PUSH, OUT.RD and OUT.BYTE stand here as two 32-bit beats
each, low half first: the split into beats and its order are the model's choice (log entry 1), not the spec's. -/
def Obligations.VectorWordsDecodeAsTheSpecSays : Prop :=
  decode [0x08020001, 0x000003E8, 0, 0, 0, 0, 0] = .instr (.chOpen 0 2 8 1000 0 0) [] ∧
  decode [0x00000202, 0x30, 0, 0x10, 0, 1, 0] = .instr (.chPush 2 48 16 1) [] ∧
  decode [0x00070410] = .instr (.bind 4 7) [] ∧
  decode [0x00020013] = .instr (.laneSet 2) [] ∧
  decode [0x00010020] = .instr .rsAny [] ∧
  decode [0x00000231, 6, 0] = .instr (.outRd 2 6) [] ∧
  decode [0x00000132, 0, 0, 2, 0] = .instr (.outByte 0 2) [] ∧
  decode [0x01000410] = .illegal .reservedField [] ∧
  decode [0x000000FF] = .illegal .unassignedOpcode []

/-! ## The step -/

/-- A step runs the decoded instruction. With no classification open it is the command at the head of the port, and the
port has moved past its words; with one open it is the window at the cursor, decoded in its context. That the port carries beats
is the model's choice (log entry 1), and that a window is run by a step is too (log entry 2). -/
def Obligations.StepRunsTheDecodedInstruction : Prop :=
  (∀ (s : State) (i : Instr) (rest : List Beat), s.walk = none → decode s.portIn = .instr i rest →
    step s = exec i { s with portIn := rest }) ∧
  (∀ (s : State) (u : Walk), s.walk = some u → u.cursor + 10 ≤ u.stream.length →
    step s = exec (decodeWindow s.cfg ⟨u.lane, u.last⟩ (windowAt u.stream u.cursor)) s)

/-- 30_encoding.md R67: a header that matches no row is answered `REJECT`, the operand words of its opcode's format are
taken, and nothing else changes; an opcode in no row has format `N`. That an operand word is two beats on the port is the model's
choice (log entry 1), not the rule's. -/
def Obligations.IllegalHeadersAreRejected : Prop :=
  (∀ (s : State) (h : Beat) (words rest : List Beat), s.walk = none → s.portIn = h :: (words ++ rest) →
    words.length = 2 * (formatOf (h.extractLsb' 0 8)).operandWords → (∀ row ∈ opcodeRows, h &&& row.1 ≠ row.2) →
    step s = .next { s with portIn := rest, response := some ⟨.reject, []⟩ }) ∧
  (∀ op : Octet, (∀ row ∈ opcodeRows, row.2.extractLsb' 0 8 ≠ op) → formatOf op = .N)

/-- The model's choice (log entry 1): while the words of the command at the head of the port have not all come, a step changes
nothing; that is so exactly when the port is empty or holds fewer beats than the format of its header asks for. -/
def Obligations.IncompleteCommandsWait : Prop :=
  (∀ s : State, s.walk = none → decode s.portIn = .incomplete → step s = .next s) ∧
  decode [] = .incomplete ∧
  (∀ (h : Beat) (words : List Beat),
    decode (h :: words) = .incomplete ↔ words.length < 2 * (formatOf (h.extractLsb' 0 8)).operandWords)

/-- There is no state from which the block stops answering (60_exceptions.md R201): every step of every state answers a
next state, never a fault or a refusal. That a step with no complete command on the port changes nothing, and that one with a
classification open runs a window, are the model's choices (log entries 1 and 2). -/
def Obligations.EveryStepAnswersANextState : Prop :=
  ∀ s : State, ∃ t, step s = .next t

/-- No working register outlives a command (10_state.md R20, R27): with no classification open before a step, none is open
after it. The field that holds an open classification is the model's choice (log entry 2). -/
def Obligations.NoClassificationStaysOpen : Prop :=
  ∀ s t : State, s.walk = none → step s = .next t → t.walk = none

/-! ## U0: the capture FIFO -/

/-- CH.OPEN (40_fifo.md R90): its encoding; a legal channel and descriptor install a new, empty capture and change nothing
else, bindings and outputs included; anything else is rejected. The encoding's beats are the model's choice (log entry 1). -/
def Obligations.OpenInstallsAnEmptyCapture : Prop :=
  (∀ (ch kind width : Octet) (ts st ss : PortWord),
    CommandEncoding (.chOpen ch kind width ts st ss) (width ++ kind ++ ch ++ 0x01#8) [ts, st, ss]) ∧
  (∀ (s : State) (c : Fin NCH) (k : Kind) (kind width : Octet) (ts st ss : PortWord),
    (kind = 1 ∧ k = .scalar ∧ width = 1) ∨ (kind = 2 ∧ k = .bus ∧ 1 ≤ width.toNat ∧ width.toNat ≤ 32) →
    exec (.chOpen (BitVec.ofNat 8 c) kind width ts st ss) s =
      .next { s with chan := s.chan.set c (some ⟨k, width.toNat, ⟨ts, st, ss⟩, []⟩), response := some ⟨.ok, []⟩ }) ∧
  (∀ (s : State) (ch kind width : Octet) (ts st ss : PortWord),
    8 ≤ ch.toNat ∨ ¬((kind = 1 ∧ width = 1) ∨ (kind = 2 ∧ 1 ≤ width.toNat ∧ width.toNat ≤ 32)) →
    exec (.chOpen ch kind width ts st ss) s = .next (s.answered .reject []))

/-- CH.PUSH (R91): its encoding; a sample that passes every test is appended at the tail and nothing else changes; each
failing test alone makes it a `REJECT`. The encoding's beats are the model's choice (log entry 1). -/
def Obligations.PushAppendsOneSample : Prop :=
  (∀ (ch : Octet) (o d v : PortWord), CommandEncoding (.chPush ch o d v) (0#16 ++ ch ++ 0x02#8) [o, d, v]) ∧
  (∀ (s : State) (c : Fin NCH) (cap : Capture) (o : Int) (d : Nat) (v : BitVec 32),
    s.chan[c] = some cap → s.cfg.depth ≠ some cap.samples.length → -(2 ^ 63) ≤ o → d < 2 ^ 63 → o + d ≤ 2 ^ 63 - 2 →
    v.toNat < 2 ^ cap.width → (∀ x, cap.samples.getLast? = some x → x.offset + x.duration ≤ o) →
    exec (.chPush (BitVec.ofNat 8 c) (BitVec.ofInt 64 o) (BitVec.ofNat 64 d) (v.setWidth 64)) s =
      .next { s with
        chan := s.chan.set c (some { cap with samples := cap.samples ++ [⟨o, d, v⟩] })
        response := some ⟨.ok, []⟩ }) ∧
  (∀ (s : State) (ch : Octet) (o d v : PortWord), 8 ≤ ch.toNat →
    exec (.chPush ch o d v) s = .next (s.answered .reject [])) ∧
  (∀ (s : State) (c : Fin NCH) (o d v : PortWord), s.chan[c] = none →
    exec (.chPush (BitVec.ofNat 8 c) o d v) s = .next (s.answered .reject [])) ∧
  (∀ (s : State) (c : Fin NCH) (cap : Capture) (o d v : PortWord), s.chan[c] = some cap →
    (s.cfg.depth = some cap.samples.length ∨ d.toInt < 0 ∨ 2 ^ 63 - 2 < o.toInt + d.toInt ∨ 2 ^ cap.width ≤ v.toNat ∨
      ∃ x, cap.samples.getLast? = some x ∧ o.toInt < x.offset + x.duration) →
    exec (.chPush (BitVec.ofNat 8 c) o d v) s = .next (s.answered .reject []))

/-- CH.DROP (R92): its encoding; the channel holds no capture, bindings stay; a number of 8 or more is rejected. -/
def Obligations.DropEmptiesTheChannel : Prop :=
  (∀ ch : Octet, CommandEncoding (.chDrop ch) (0#16 ++ ch ++ 0x03#8) []) ∧
  (∀ (s : State) (c : Fin NCH), exec (.chDrop (BitVec.ofNat 8 c)) s =
    .next { s with chan := s.chan.set c none, response := some ⟨.ok, []⟩ }) ∧
  (∀ (s : State) (ch : Octet), 8 ≤ ch.toNat → exec (.chDrop ch) s = .next (s.answered .reject []))

/-- CH.STAT (R93): its encoding; five zero words for an absent capture, else the descriptor word
`1 | kind << 8 | width << 16`, the length and the header; no state changes but the answer. A length of 2^64 or more is answered
modulo 2^64: the model's choice (log entry 11). -/
def Obligations.StatReportsTheCapture : Prop :=
  (∀ ch : Octet, CommandEncoding (.chStat ch) (0#16 ++ ch ++ 0x04#8) []) ∧
  (∀ (s : State) (c : Fin NCH), s.chan[c] = none →
    exec (.chStat (BitVec.ofNat 8 c)) s = .next (s.answered .ok [0, 0, 0, 0, 0])) ∧
  (∀ (s : State) (c : Fin NCH) (w : Nat) (h : Header) (l : List Sample) (k : Kind), w < 256 → s.chan[c] = some ⟨k, w, h, l⟩ →
    exec (.chStat (BitVec.ofNat 8 c)) s =
      .next (s.answered .ok [1#64 ||| BitVec.ofNat 64 (match k with | .scalar => 1 | .bus => 2) <<< 8 ||| BitVec.ofNat 64 w <<< 16,
        BitVec.ofNat 64 l.length, h.timescale, h.startTs, h.startSub])) ∧
  (∀ (s : State) (ch : Octet), 8 ≤ ch.toNat → exec (.chStat ch) s = .next (s.answered .reject []))

/-- CH.RD (R94): its encoding; the three words of the sample, without removing it; rejected where there is none.
The encoding's beats are the model's choice (log entry 1). -/
def Obligations.ReadAnswersTheSample : Prop :=
  (∀ (ch : Octet) (idx : PortWord), CommandEncoding (.chRd ch idx) (0#16 ++ ch ++ 0x05#8) [idx]) ∧
  (∀ (s : State) (c : Fin NCH) (cap : Capture) (idx : PortWord) (x : Sample),
    s.chan[c] = some cap → cap.samples[idx.toNat]? = some x →
    exec (.chRd (BitVec.ofNat 8 c) idx) s =
      .next (s.answered .ok [BitVec.ofInt 64 x.offset, BitVec.ofNat 64 x.duration, x.value.setWidth 64])) ∧
  (∀ (s : State) (ch : Octet) (idx : PortWord), 8 ≤ ch.toNat → exec (.chRd ch idx) s = .next (s.answered .reject [])) ∧
  (∀ (s : State) (c : Fin NCH) (idx : PortWord), s.chan[c] = none →
    exec (.chRd (BitVec.ofNat 8 c) idx) s = .next (s.answered .reject [])) ∧
  (∀ (s : State) (c : Fin NCH) (cap : Capture) (idx : PortWord), s.chan[c] = some cap → cap.samples.length ≤ idx.toNat →
    exec (.chRd (BitVec.ofNat 8 c) idx) s = .next (s.answered .reject []))

/-- OUT.STAT (R96): its encoding; what each output reports, `PROTOCOL` (4) and width 0 for the framer and the TMDS decoder;
five zero words when it is absent; a unit above 2 is rejected. A length of 2^64 or more is answered modulo 2^64: the model's
choice (log entry 11). -/
def Obligations.OutStatReportsTheOutput : Prop :=
  (∀ u : Octet, CommandEncoding (.outStat u) (0#16 ++ u ++ 0x30#8) []) ∧
  (∀ s : State, (s.outRs = none → exec (.outStat 0) s = .next (s.answered .ok [0, 0, 0, 0, 0])) ∧
    (s.outGmii = none → exec (.outStat 1) s = .next (s.answered .ok [0, 0, 0, 0, 0])) ∧
    (s.outTmds = none → exec (.outStat 2) s = .next (s.answered .ok [0, 0, 0, 0, 0]))) ∧
  (∀ (s : State) (k : Kind) (w : Nat) (h : Header) (l : List Sample), w < 256 → s.outRs = some ⟨k, w, h, l⟩ →
    exec (.outStat 0) s =
      .next (s.answered .ok [1#64 ||| BitVec.ofNat 64 (match k with | .scalar => 1 | .bus => 2) <<< 8 ||| BitVec.ofNat 64 w <<< 16,
        BitVec.ofNat 64 l.length, h.timescale, h.startTs, h.startSub])) ∧
  (∀ (s : State) (h : Header) (l : List Frame), s.outGmii = some ⟨h, l⟩ →
    exec (.outStat 1) s = .next (s.answered .ok [0x401, BitVec.ofNat 64 l.length, h.timescale, h.startTs, h.startSub])) ∧
  (∀ (s : State) (h : Header) (l : List SymbolSample), s.outTmds = some ⟨h, l⟩ →
    exec (.outStat 2) s = .next (s.answered .ok [0x401, BitVec.ofNat 64 l.length, h.timescale, h.startTs, h.startSub])) ∧
  (∀ (s : State) (u : Octet), 3 ≤ u.toNat → exec (.outStat u) s = .next (s.answered .reject []))

/-- OUT.RD (R97): its encoding; the entry of each output as three words, a symbol in the code of 30_encoding.md R76;
rejected where there is no entry. An octet count of 2^64 or more is answered modulo 2^64: the model's choice (log entry 11),
and so are the encoding's beats (log entry 1). -/
def Obligations.OutReadAnswersTheEntry : Prop :=
  (∀ (u : Octet) (idx : PortWord), CommandEncoding (.outRd u idx) (0#16 ++ u ++ 0x31#8) [idx]) ∧
  (∀ (s : State) (o : Capture) (idx : PortWord) (x : Sample), s.outRs = some o → o.samples[idx.toNat]? = some x →
    exec (.outRd 0 idx) s =
      .next (s.answered .ok [BitVec.ofInt 64 x.offset, BitVec.ofNat 64 x.duration, x.value.setWidth 64])) ∧
  (∀ (s : State) (o : GmiiCapture) (idx : PortWord) (f : Frame), s.outGmii = some o → o.frames[idx.toNat]? = some f →
    exec (.outRd 1 idx) s =
      .next (s.answered .ok [BitVec.ofInt 64 f.start, BitVec.ofInt 64 f.stop, BitVec.ofNat 64 f.octets.length])) ∧
  (∀ (s : State) (o : TmdsCapture) (idx : PortWord) (x : SymbolSample), s.outTmds = some o →
    o.symbols[idx.toNat]? = some x →
    exec (.outRd 2 idx) s =
      .next (s.answered .ok [BitVec.ofInt 64 x.offset, BitVec.ofNat 64 x.duration,
        match x.sym with
        | .control j => BitVec.ofNat 64 j
        | .guard => 0x100
        | .data v => BitVec.ofNat 64 (0x200 + v.toNat)])) ∧
  (∀ (s : State) (u : Octet) (idx : PortWord), 3 ≤ u.toNat → exec (.outRd u idx) s = .next (s.answered .reject [])) ∧
  (∀ (s : State) (idx : PortWord),
    ((∀ o, s.outRs = some o → o.samples.length ≤ idx.toNat) → exec (.outRd 0 idx) s = .next (s.answered .reject [])) ∧
    ((∀ o, s.outGmii = some o → o.frames.length ≤ idx.toNat) → exec (.outRd 1 idx) s = .next (s.answered .reject [])) ∧
    ((∀ o, s.outTmds = some o → o.symbols.length ≤ idx.toNat) → exec (.outRd 2 idx) s = .next (s.answered .reject [])))

/-- OUT.BYTE (R98): its encoding, with `a = 1`; the octet, octet 0 first; rejected where there is none.
The encoding's beats are the model's choice (log entry 1). -/
def Obligations.OutByteAnswersTheOctet : Prop :=
  (∀ f k : PortWord, CommandEncoding (.outByte f k) 0x00000132 [f, k]) ∧
  (∀ (s : State) (o : GmiiCapture) (fr : Frame) (f k : PortWord) (b : Octet), s.outGmii = some o →
    o.frames[f.toNat]? = some fr → fr.octets[k.toNat]? = some b →
    exec (.outByte f k) s = .next (s.answered .ok [b.setWidth 64])) ∧
  (∀ (s : State) (f k : PortWord),
    (∀ o fr, s.outGmii = some o → o.frames[f.toNat]? = some fr → fr.octets.length ≤ k.toNat) →
    exec (.outByte f k) s = .next (s.answered .reject []))

/-- No operation changes or removes a sample that has been pushed, except CH.OPEN and CH.DROP, which discard the whole
capture (10_state.md R13). -/
def Obligations.PushedSamplesStay : Prop :=
  ∀ (i : Instr) (s t : State), exec i s = .next t →
    (∀ ch kind width ts st ss, i ≠ .chOpen ch kind width ts st ss) → (∀ ch, i ≠ .chDrop ch) →
    ∀ (c : Fin NCH) (n : Nat) (x : Sample), s.capRead c n = some x → t.capRead c n = some x

/-! ## Binding and the lane -/

/-- The type check of a slot (41_config.md R111, the table of 10_state.md R14): slot 0 takes an 8-bit bus, slot 6 any
capture, the others a scalar of width 1. -/
def Obligations.SlotsTakeTheirOwnKind : Prop :=
  ∀ (k : Fin NSLOT) (cap : Capture),
    typeOK k cap = true ↔
      (k = 0 ∧ cap.kind = .bus ∧ cap.width = 8) ∨ (k = 6 ∧ (cap.kind = .scalar ∨ cap.kind = .bus)) ∨
        (k ≠ 0 ∧ k ≠ 6 ∧ cap.kind = .scalar ∧ cap.width = 1)

/-- BIND (R110): its encoding; a channel whose current capture fits the slot is bound and nothing else changes; otherwise
it is rejected and the slot keeps the binding it had. -/
def Obligations.BindValidatesAndBinds : Prop :=
  (∀ slot ch : Octet, CommandEncoding (.bind slot ch) (0#8 ++ ch ++ slot ++ 0x10#8) []) ∧
  (∀ (s : State) (k : Fin NSLOT) (c : Fin NCH) (cap : Capture), s.chan[c] = some cap → typeOK k cap = true →
    exec (.bind (BitVec.ofNat 8 k) (BitVec.ofNat 8 c)) s =
      .next { s with bind := s.bind.set k (some c), response := some ⟨.ok, []⟩ }) ∧
  (∀ (s : State) (slot ch : Octet), 8 ≤ slot.toNat ∨ 8 ≤ ch.toNat →
    exec (.bind slot ch) s = .next (s.answered .reject [])) ∧
  (∀ (s : State) (k : Fin NSLOT) (c : Fin NCH), (∀ cap, s.chan[c] = some cap → typeOK k cap = false) →
    exec (.bind (BitVec.ofNat 8 k) (BitVec.ofNat 8 c)) s = .next (s.answered .reject []))

/-- UNBIND (R112): its encoding; the slot is unbound, whatever it was; a number of 8 or more is rejected. -/
def Obligations.UnbindDisconnectsTheSlot : Prop :=
  (∀ slot : Octet, CommandEncoding (.unbind slot) (0#16 ++ slot ++ 0x11#8) []) ∧
  (∀ (s : State) (k : Fin NSLOT), exec (.unbind (BitVec.ofNat 8 k)) s =
    .next { s with bind := s.bind.set k none, response := some ⟨.ok, []⟩ }) ∧
  (∀ (s : State) (slot : Octet), 8 ≤ slot.toNat → exec (.unbind slot) s = .next (s.answered .reject []))

/-- BIND.GET (R113): its encoding; 0 for an unbound slot, `1 | c << 8` for a bound one. -/
def Obligations.BindGetReadsTheBinding : Prop :=
  (∀ slot : Octet, CommandEncoding (.bindGet slot) (0#16 ++ slot ++ 0x12#8) []) ∧
  (∀ (s : State) (k : Fin NSLOT), s.bind[k] = none →
    exec (.bindGet (BitVec.ofNat 8 k)) s = .next (s.answered .ok [0])) ∧
  (∀ (s : State) (k : Fin NSLOT) (c : Fin NCH), s.bind[k] = some c →
    exec (.bindGet (BitVec.ofNat 8 k)) s = .next (s.answered .ok [1#64 ||| BitVec.ofNat 64 c <<< 8])) ∧
  (∀ (s : State) (slot : Octet), 8 ≤ slot.toNat → exec (.bindGet slot) s = .next (s.answered .reject []))

/-- LANE.SET and LANE.GET (R114, R115): their encodings; 0, 1 and 2 are stored, a value above 2 is rejected and the register
keeps its value; LANE.GET answers the register. -/
def Obligations.LaneIsSetAndRead : Prop :=
  (∀ v : BitVec 16, CommandEncoding (.laneSet v) (v ++ 0#8 ++ 0x13#8) []) ∧
  CommandEncoding .laneGet 0x00000014 [] ∧
  (∀ (s : State) (l : Fin 3), exec (.laneSet (BitVec.ofNat 16 l)) s = .next { s with lane := l, response := some ⟨.ok, []⟩ }) ∧
  (∀ (s : State) (v : BitVec 16), 2 < v.toNat → exec (.laneSet v) s = .next (s.answered .reject [])) ∧
  (∀ s : State, exec .laneGet s = .next (s.answered .ok [BitVec.ofNat 64 s.lane]))

/-- Gather (R116) gives captures exactly when they pass every check; it fails with `E_UNBOUND` when a slot has no capture, and
with `E_TYPE` when every slot has one and a check fails. -/
def Obligations.GatherAcceptsExactlySoundInputs : Prop :=
  (∀ (s : State) (slots : List (Fin NSLOT)) (caps : List Capture), s.gather slots = .ok caps ↔ s.Inputs slots caps) ∧
  (∀ (s : State) (slots : List (Fin NSLOT)), (∃ k ∈ slots, s.slotCapture k = none) → s.gather slots = .error .unbound) ∧
  (∀ (s : State) (slots : List (Fin NSLOT)), (∀ k ∈ slots, s.slotCapture k ≠ none) → (∀ caps, ¬s.Inputs slots caps) →
    s.gather slots = .error .type)

/-! ## U1: the clock resampler -/

/-- RS.RISE and RS.ANY (42_resampler.md R131, R132): their encodings; with sound inputs on slots 6 and 7 the resampled stream
is installed in `out[0]` with the data's descriptor and the clock's header; otherwise `out[0]` becomes absent; the answer is
`OK` and nothing else changes. -/
def Obligations.ResamplerRefreshInstallsItsStream : Prop :=
  CommandEncoding .rsRise 0x00000020 [] ∧ CommandEncoding .rsAny 0x00010020 [] ∧
  (∀ (s : State) (d c : Capture), s.Inputs [6, 7] [d, c] →
    exec .rsRise s =
      .next { s with
        outRs := some ⟨d.kind, d.width, c.header, resample .rising d.samples c.samples⟩
        response := some ⟨.ok, []⟩ } ∧
    exec .rsAny s =
      .next { s with
        outRs := some ⟨d.kind, d.width, c.header, resample .any d.samples c.samples⟩
        response := some ⟨.ok, []⟩ }) ∧
  (∀ s : State, (∀ d c, ¬s.Inputs [6, 7] [d, c]) →
    exec .rsRise s = .next { s with outRs := none, response := some ⟨.ok, []⟩ } ∧
    exec .rsAny s = .next { s with outRs := none, response := some ⟨.ok, []⟩ })

/-- The forward-only data cursor finds what the contract asks for (R120 to R124, R126): on sorted captures the result has,
for every selected transition of the clock in order, one entry at its time with the value of the data sample of greatest
index at or before it, and none where there is no such sample. -/
def Obligations.ResampleTakesTheValueInEffect : Prop :=
  ∀ (mode : EdgeMode) (d c : List Sample), SortedOffsets d → SortedOffsets c →
    (resample mode d c).map (fun x => (x.offset, x.value)) =
      (edgeTimes mode c).filterMap fun t => (valueInEffect d t).map fun v => (t, v)

/-- R128, R129: on sorted captures the length of the result is the number of selected transitions that have a data sample at
or before them; so it is at most their number, which is at most one less than the number of clock samples; empty inputs and
a single clock sample give an empty result. -/
def Obligations.ResampleLengthIsBounded : Prop :=
  (∀ (mode : EdgeMode) (d c : List Sample), SortedOffsets d → SortedOffsets c →
    (resample mode d c).length = ((edgeTimes mode c).filter fun t => d.any fun x => decide (x.offset ≤ t)).length) ∧
  (∀ (mode : EdgeMode) (d c : List Sample),
    (resample mode d c).length ≤ (edgeTimes mode c).length ∧ (edgeTimes mode c).length ≤ c.length - 1) ∧
  (∀ (mode : EdgeMode) (l : List Sample) (x : Sample),
    resample mode [] l = [] ∧ resample mode l [] = [] ∧ resample mode l [x] = [])

/-- Durations of the result (R127): each sample ends where the next starts, the last lasts `LAST_DUR` = 1 tick, and with every
clock offset at most `TMAX` every sample ends at 2^63 - 1 at the latest. -/
def Obligations.ResampledSamplesAbut : Prop :=
  ∀ (mode : EdgeMode) (d c : List Sample), SortedOffsets c →
    (∀ (m : Nat) (x y : Sample), (resample mode d c)[m]? = some x → (resample mode d c)[m + 1]? = some y →
      (x.duration : Int) = y.offset - x.offset) ∧
    (∀ x : Sample, (resample mode d c).getLast? = some x → x.duration = 1) ∧
    ((∀ y ∈ c, y.offset ≤ 2 ^ 63 - 2) → ∀ x ∈ resample mode d c, x.offset + x.duration ≤ 2 ^ 63 - 1)

/-! ## U2: the framer -/

/-- The frames are the maximal runs of asserted enable, in time order (43_framer.md R140, R142, R143): one octet a sample, the
low eight bits of its value, from the start of the first data sample to the end of the last. The rules speak of streams of
equal length (90_conflicts.md C5); that the samples of streams of unequal length are paired up to the shorter stream's end is
the model's choice (log entry 10), and GMII.REFRESH never frames such streams (R148). -/
def Obligations.FramesAreTheEnabledRuns : Prop :=
  ∀ rd re : List Sample, frames rd re = (enabledRuns rd re).filterMap frameOfRun

/-- R146: every frame has an octet, there are at most `ceil(n / 2)` frames, the octets are as many as the enabled samples, and
on an ordered data stream no frame starts before the one before it has ended. -/
def Obligations.FramesAreBoundedAndDisjoint : Prop :=
  ∀ rd re : List Sample, rd.length = re.length →
    (∀ f ∈ frames rd re, f.octets ≠ []) ∧ (frames rd re).length ≤ (rd.length + 1) / 2 ∧
    ((frames rd re).map fun f => f.octets.length).sum = re.countP Sample.bit ∧
    (ordered rd = true → ∀ (m : Nat) (f g : Frame), (frames rd re)[m]? = some f → (frames rd re)[m + 1]? = some g →
      f.stop ≤ g.start)

/-- GMII.REFRESH (R147, R148): its encoding; with sound inputs on slots 0 to 3 and resampled streams of equal length the
frames are installed in `out[1]` with the clock's header; otherwise `out[1]` becomes absent; the answer is `OK` and nothing
else changes. -/
def Obligations.GmiiRefreshInstallsTheFrames : Prop :=
  CommandEncoding .gmiiRefresh 0x00000021 [] ∧
  (∀ (s : State) (data clk en er : Capture), s.Inputs [0, 1, 2, 3] [data, clk, en, er] →
    (resample .rising data.samples clk.samples).length = (resample .rising en.samples clk.samples).length →
    (resample .rising en.samples clk.samples).length = (resample .rising er.samples clk.samples).length →
    exec .gmiiRefresh s =
      .next { s with
        outGmii := some ⟨clk.header, frames (resample .rising data.samples clk.samples) (resample .rising en.samples clk.samples)⟩
        response := some ⟨.ok, []⟩ }) ∧
  (∀ (s : State) (data clk en er : Capture), s.Inputs [0, 1, 2, 3] [data, clk, en, er] →
    ¬((resample .rising data.samples clk.samples).length = (resample .rising en.samples clk.samples).length ∧
      (resample .rising en.samples clk.samples).length = (resample .rising er.samples clk.samples).length) →
    exec .gmiiRefresh s = .next { s with outGmii := none, response := some ⟨.ok, []⟩ }) ∧
  (∀ s : State, (∀ data clk en er, ¬s.Inputs [0, 1, 2, 3] [data, clk, en, er]) →
    exec .gmiiRefresh s = .next { s with outGmii := none, response := some ⟨.ok, []⟩ })

/-- The values of the error signal play no part (R145): another capture with the same descriptor, header and sample offsets on
its channel gives the same `out[1]`. -/
def Obligations.GmiiIgnoresErrorValues : Prop :=
  ∀ (s : State) (e : Fin NCH) (er er' : Capture), s.bind[(3 : Fin NSLOT)] = some e →
    (∀ k : Fin NSLOT, k < 3 → s.bind[k] ≠ some e) → s.chan[e] = some er → er'.kind = er.kind → er'.width = er.width →
    er'.header = er.header → er'.samples.map (fun x => x.offset) = er.samples.map (fun x => x.offset) →
    ∃ t t', exec .gmiiRefresh s = .next t ∧ exec .gmiiRefresh { s with chan := s.chan.set e (some er') } = .next t' ∧
      t.outGmii = t'.outGmii

/-! ## U3: the phase searcher -/

/-- The counter of a phase and a code counts every complete window of the phase that equals the code, and no other
(44_tmds_search.md R156 to R158): bit `k` of the window at `i` is the bit of `S[i + k]`. -/
def Obligations.CountersCountCompleteWindows : Prop :=
  (∀ (cfg : Config) (st : List Sample) (p : Fin 10) (j : Fin 4),
    matchCount cfg st p j =
      ((List.range st.length).filter fun (i : Nat) =>
        decide (i % 10 = (p : Nat) ∧ i + 10 ≤ st.length ∧ windowAt st i = cfg.ctrl[j])).length) ∧
  (∀ (st : List Sample) (i k : Nat) (x : Sample), i + 10 ≤ st.length → k < 10 → st[i + k]? = some x →
    (windowAt st i).getLsbD k = x.bit)

/-- The search returns the first alignment with the highest count (R159 to R161): with no match anywhere `(0, 0, 0)`; otherwise
the least phase whose best counter is maximal, that maximum, and the least code that reaches it there. -/
def Obligations.SearchFindsTheFirstBestPhase : Prop :=
  ∀ (cfg : Config) (st : List Sample),
    ((∀ p j, matchCount cfg st p j = 0) → phaseSearch cfg st = ⟨0, 0, 0⟩) ∧
    ((∃ p j, matchCount cfg st p j ≠ 0) →
      (phaseSearch cfg st).count = matchCount cfg st (phaseSearch cfg st).offset (phaseSearch cfg st).code ∧
      (∀ p j, matchCount cfg st p j ≤ (phaseSearch cfg st).count) ∧
      (∀ p j, p < (phaseSearch cfg st).offset → matchCount cfg st p j < (phaseSearch cfg st).count) ∧
      (∀ j, j < (phaseSearch cfg st).code → matchCount cfg st (phaseSearch cfg st).offset j < (phaseSearch cfg st).count))

/-- The search is a function of the bit values and of `CTRL` alone (R162): no time stamp, guard table or depth changes it. -/
def Obligations.SearchDependsOnBitsAlone : Prop :=
  ∀ (cfg cfg' : Config) (st st' : List Sample), cfg.ctrl = cfg'.ctrl → st.map Sample.bit = st'.map Sample.bit →
    phaseSearch cfg st = phaseSearch cfg' st'

/-! ## U4: the classifier -/

/-- DecodeData bit by bit (45_tmds_classify.md R176): with `q` the field `d`, inverted when `d9` is set, result bit 0 is `q[0]`
and result bit `n` is `q[n] xor q[n-1]`, inverted when `d8` is clear. -/
def Obligations.DecodeDataBitByBit : Prop :=
  ∀ (w : Window) (n : Nat), n < 8 →
    (decodeData w).getLsbD n =
      if n = 0 then w.getLsbD 0 ^^ w.getLsbD 9
      else (w.getLsbD n ^^ w.getLsbD 9) ^^ (w.getLsbD (n - 1) ^^ w.getLsbD 9) ^^ !w.getLsbD 8

/-- The data recovery round trip (R177): for each value and each pair `(d9, d8)` the window `EncodeData` gives carries the pair and
decodes to the value, and it is the only window with that pair that does. -/
def Obligations.DecodeDataInvertsEncodeData : Prop :=
  (∀ (v : Octet) (d9 d8 : Bool), decodeData (encodeData v d9 d8) = v ∧ (encodeData v d9 d8).getLsbD 9 = d9 ∧
    (encodeData v d9 d8).getLsbD 8 = d8) ∧
  (∀ (v : Octet) (w : Window), decodeData w = v → w = encodeData v (w.getLsbD 9) (w.getLsbD 8))

/-- The effect every arm has (R172, R178): one symbol is appended, its time span runs from the first sample of the window to the
sample after the window, or to the end of the window's last sample when there is none after it; the history register holds
what the symbol leaves; the cursor has advanced by ten; nothing else of the registers changes. -/
def Obligations.EmitAppendsTheSymbolWithItsSpan : Prop :=
  ∀ (u : Walk) (sym : Symbol) (x last : Sample), SortedOffsets u.stream → u.stream[u.cursor]? = some x →
    u.stream[u.cursor + 9]? = some last →
    ∃ y : SymbolSample,
      u.emit sym = { u with symbols := u.symbols ++ [y], last := sym.leaves, cursor := u.cursor + 10 } ∧
      y.offset = x.offset ∧ y.sym = sym ∧
      (∀ z, u.stream[u.cursor + 10]? = some z → y.offset + y.duration = z.offset) ∧
      (u.stream.length = u.cursor + 10 → y.offset + y.duration = last.offset + last.duration) ∧
      (u.emit sym).last = match sym with | .control _ => .preamble | .guard => .guard | .data _ => .data

/-- The CONTROL arm (R173): a window equal to a control code emits `CONTROL(j)` for the least such `j`, in any context; and each
of the four classes, executed with a complete window, completes with that symbol and changes nothing else. The rule gives the
effect; that a step runs one window of an open classification, and that a class executed by itself emits its own symbol without
reading the window again, is the model's choice (log entry 2). -/
def Obligations.ControlArmEmitsControl : Prop :=
  (∀ (s : State) (u : Walk) (j : Fin 4), s.walk = some u → u.cursor + 10 ≤ u.stream.length →
    windowAt u.stream u.cursor = s.cfg.ctrl[j] → (∀ j', j' < j → windowAt u.stream u.cursor ≠ s.cfg.ctrl[j']) →
    step s = .next { s with walk := some (u.emit (.control j)) }) ∧
  (∀ (s : State) (u : Walk), s.walk = some u → u.cursor + 10 ≤ u.stream.length →
    exec .control0 s = .next { s with walk := some (u.emit (.control 0)) } ∧
    exec .control1 s = .next { s with walk := some (u.emit (.control 1)) } ∧
    exec .control2 s = .next { s with walk := some (u.emit (.control 2)) } ∧
    exec .control3 s = .next { s with walk := some (u.emit (.control 3)) })

/-- The GUARD arm (R174): a window that is no control code and is the configured lane's pattern emits `GUARD` when the symbol
before was `CONTROL` or `GUARD`; the three classes, executed in their lane in such a context, complete with it; after a `DATA`
symbol the same pattern goes to the data arm. The rule gives the effect; that a step runs one window of an open classification,
and that a class executed by itself does not read the window again, is the model's choice (log entry 2). -/
def Obligations.GuardArmEmitsGuard : Prop :=
  (∀ (s : State) (u : Walk), s.walk = some u → u.cursor + 10 ≤ u.stream.length →
    (∀ j : Fin 4, windowAt u.stream u.cursor ≠ s.cfg.ctrl[j]) → windowAt u.stream u.cursor = s.cfg.guard[u.lane] →
    (u.last = .preamble ∨ u.last = .guard → step s = .next { s with walk := some (u.emit .guard) }) ∧
    (u.last = .data →
      step s = .next { s with walk := some (u.emit (.data (decodeData (windowAt u.stream u.cursor)))) })) ∧
  (∀ (s : State) (u : Walk), s.walk = some u → u.cursor + 10 ≤ u.stream.length → u.last = .preamble ∨ u.last = .guard →
    (u.lane = 0 → exec .guardLane0 s = .next { s with walk := some (u.emit .guard) }) ∧
    (u.lane = 1 → exec .guardLane1 s = .next { s with walk := some (u.emit .guard) }) ∧
    (u.lane = 2 → exec .guardLane2 s = .next { s with walk := some (u.emit .guard) }))

/-- The DATA arm (R175, R176): a window that is no control code and not the configured lane's pattern emits
`DATA(DecodeData(w))` in any context; each of the four classes, executed with a complete window, completes with the value of its
field `d`: inverted when `d9` is set, exclusive-or with itself shifted left by one, and with 0xFE when `d8` is clear. The rules
give the effect; that a step runs one window of an open classification, and that a class executed by itself carries the field
`d` and does not read the window again, is the model's choice (log entry 2). -/
def Obligations.DataArmEmitsTheValue : Prop :=
  (∀ (s : State) (u : Walk), s.walk = some u → u.cursor + 10 ≤ u.stream.length →
    (∀ j : Fin 4, windowAt u.stream u.cursor ≠ s.cfg.ctrl[j]) → windowAt u.stream u.cursor ≠ s.cfg.guard[u.lane] →
    step s = .next { s with walk := some (u.emit (.data (decodeData (windowAt u.stream u.cursor)))) }) ∧
  (∀ (s : State) (u : Walk) (d : Octet), s.walk = some u → u.cursor + 10 ≤ u.stream.length →
    exec (.data00 d) s = .next { s with walk := some (u.emit (.data (d ^^^ d <<< 1 ^^^ 0xFE#8))) } ∧
    exec (.data01 d) s = .next { s with walk := some (u.emit (.data (d ^^^ d <<< 1))) } ∧
    exec (.data10 d) s = .next { s with walk := some (u.emit (.data (~~~d ^^^ (~~~d) <<< 1 ^^^ 0xFE#8))) } ∧
    exec (.data11 d) s = .next { s with walk := some (u.emit (.data (~~~d ^^^ (~~~d) <<< 1))) })

/-- The model's choice (log entry 2): a guard class executed in another lane, or after a `DATA` symbol, takes its pattern to the data
arm, as 45_tmds_classify.md R183 says of the window itself. -/
def Obligations.GuardClassesOutOfContextEmitData : Prop :=
  ∀ (s : State) (u : Walk), s.walk = some u → u.cursor + 10 ≤ u.stream.length →
    (u.lane ≠ 0 ∨ u.last = .data →
      exec .guardLane0 s = .next { s with walk := some (u.emit (.data (decodeData s.cfg.guard[0]))) }) ∧
    (u.lane ≠ 1 ∨ u.last = .data →
      exec .guardLane1 s = .next { s with walk := some (u.emit (.data (decodeData s.cfg.guard[1]))) }) ∧
    (u.lane ≠ 2 ∨ u.last = .data →
      exec .guardLane2 s = .next { s with walk := some (u.emit (.data (decodeData s.cfg.guard[2]))) })

/-- The model's choice (log entry 2): a window class executed by itself, with no classification open, is refused, and with no
complete window at the cursor it faults; by `EveryStepAnswersANextState` no step does either. -/
def Obligations.WindowClassesNeedAWindow : Prop :=
  ∀ (i : Instr) (s : State), isCommand i = false →
    (s.walk = none → exec i s = .refused .noClassification) ∧
    (∀ u, s.walk = some u → u.stream.length < u.cursor + 10 → exec i s = .fault .windowPastEnd)

/-- Classify (R170, R171, R172, R179): from the start state of the registers it emits one symbol for each complete window, in
order; the `m`-th carries the offset of the first sample of its window and the symbol the map of 30_encoding.md R77 gives in the
history that the symbols before it leave. -/
def Obligations.ClassifyEmitsOneSymbolPerWindow : Prop :=
  ∀ (cfg : Config) (st : List Sample) (h : Header) (lane : Fin 3) (p : Nat),
    ((Walk.finish cfg ⟨st, h, lane, p, .data, []⟩).symbols.length = (st.length - p) / 10) ∧
    (∀ (m : Nat) (x : Sample), p + 10 * m + 10 ≤ st.length → st[p + 10 * m]? = some x →
      ∃ y : SymbolSample, (Walk.finish cfg ⟨st, h, lane, p, .data, []⟩).symbols[m]? = some y ∧ y.offset = x.offset ∧
        y.sym = symbolOf cfg ⟨lane, historyAfter ((Walk.finish cfg ⟨st, h, lane, p, .data, []⟩).symbols.take m)⟩
          (windowAt st (p + 10 * m)))

/-- R180: the output has `floor((N - p) / 10)` entries; on an ordered stream the symbols abut, each ending where the next starts,
the first starting at the sample at the chosen alignment. -/
def Obligations.SymbolsAbut : Prop :=
  ∀ (cfg : Config) (st : List Sample) (h : Header) (lane : Fin 3) (p : Nat), SortedOffsets st →
    ((Walk.finish cfg ⟨st, h, lane, p, .data, []⟩).symbols.length = (st.length - p) / 10) ∧
    (∀ (m : Nat) (a b : SymbolSample), (Walk.finish cfg ⟨st, h, lane, p, .data, []⟩).symbols[m]? = some a →
      (Walk.finish cfg ⟨st, h, lane, p, .data, []⟩).symbols[m + 1]? = some b → a.offset + a.duration = b.offset) ∧
    (∀ (a : SymbolSample) (x : Sample), (Walk.finish cfg ⟨st, h, lane, p, .data, []⟩).symbols.head? = some a →
      st[p]? = some x → a.offset = x.offset)

/-- The guard reachability law (R181), for every stream, alignment, lane and table: a `GUARD` symbol comes only after a `CONTROL`
or a `GUARD`, and never first. -/
def Obligations.GuardNeverFollowsData : Prop :=
  ∀ (cfg : Config) (st : List Sample) (h : Header) (lane : Fin 3) (p : Nat),
    (∀ a, (Walk.finish cfg ⟨st, h, lane, p, .data, []⟩).symbols.head? = some a → a.sym ≠ .guard) ∧
    (∀ (m : Nat) (a b : SymbolSample), (Walk.finish cfg ⟨st, h, lane, p, .data, []⟩).symbols[m]? = some a →
      (Walk.finish cfg ⟨st, h, lane, p, .data, []⟩).symbols[m + 1]? = some b → b.sym = .guard →
      a.sym = .guard ∨ ∃ j, a.sym = .control j)

/-- TMDS.REFRESH (R182): its encoding; with sound inputs on slots 4 and 5 and at least 20 bits in the any-edge stream, `out[2]` is
what Classify emits from the alignment the search chose and the lane register, with the clock's header; otherwise it becomes
absent; the answer is `OK` and nothing else changes. -/
def Obligations.TmdsRefreshInstallsTheSymbols : Prop :=
  CommandEncoding .tmdsRefresh 0x00000022 [] ∧
  (∀ (s : State) (data clk : Capture) (st : List Sample), s.Inputs [4, 5] [data, clk] →
    st = resample .any data.samples clk.samples → 20 ≤ st.length →
    exec .tmdsRefresh s =
      .next { s with
        outTmds := some ⟨clk.header,
          (Walk.finish s.cfg ⟨st, clk.header, s.lane, (phaseSearch s.cfg st).offset, .data, []⟩).symbols⟩
        response := some ⟨.ok, []⟩ }) ∧
  (∀ (s : State) (data clk : Capture), s.Inputs [4, 5] [data, clk] →
    (resample .any data.samples clk.samples).length < 20 →
    exec .tmdsRefresh s = .next { s with outTmds := none, response := some ⟨.ok, []⟩ }) ∧
  (∀ s : State, (∀ data clk, ¬s.Inputs [4, 5] [data, clk]) →
    exec .tmdsRefresh s = .next { s with outTmds := none, response := some ⟨.ok, []⟩ })

/-- The atomic refresh is its windows run one after the other: from the registers that TMDS.REFRESH loads, one step for each
complete window and one that installs reach the state that the command reaches in one step. That windows run as steps is the
model's choice (log entry 2); the spec makes the refresh one atomic command. -/
def Obligations.TmdsRefreshEqualsItsWindowSteps : Prop :=
  ∀ (s : State) (u : Walk), s.walk = none → s.startWalk = .ok u →
    Sys2Proof.core.run ((u.stream.length - u.cursor) / 10 + 1) { s with walk := some u } = exec .tmdsRefresh s

/-! ## The whole machine -/

/-- 30_encoding.md R60, R66: every command is answered by a status, `OK` (0) or `REJECT` (1), and at most five data words; a
`REJECT` has no data words and leaves everything else as it was; a refresh never rejects. -/
def Obligations.RejectChangesNothing : Prop :=
  Status.ok.code = 0 ∧ Status.reject.code = 1 ∧
  ∀ (i : Instr) (s : State), isCommand i = true →
    ∃ t r, exec i s = .next t ∧ t.response = some r ∧ r.data.length ≤ 5 ∧
      (r.status = .reject → t = { s with response := some ⟨.reject, []⟩ }) ∧ (isRefresh i = true → r = ⟨.ok, []⟩)

/-- The division of write rights (60_exceptions.md R200, 20_memory.md R54): no command but a refresh writes an output, no refresh
and no window class writes a channel, a binding or the lane, a refresh writes only the output of its own unit, and nothing writes
the pattern ROM (10_state.md R19). -/
def Obligations.WriteRightsAreDivided : Prop :=
  ∀ (i : Instr) (s t : State), exec i s = .next t →
    t.cfg = s.cfg ∧
    (isRefresh i = false → t.outRs = s.outRs ∧ t.outGmii = s.outGmii ∧ t.outTmds = s.outTmds) ∧
    (isRefresh i = true ∨ isCommand i = false → t.chan = s.chan ∧ t.bind = s.bind ∧ t.lane = s.lane) ∧
    (i ≠ .rsRise → i ≠ .rsAny → t.outRs = s.outRs) ∧ (i ≠ .gmiiRefresh → t.outGmii = s.outGmii) ∧
    (i ≠ .tmdsRefresh → t.outTmds = s.outTmds)

/-- A refresh after any history behaves as after reset on the same inputs (60_exceptions.md R199, 10_state.md R27): the output
depends on the channels, the bindings, the lane and the configuration alone. -/
def Obligations.RefreshDependsOnItsInputsAlone : Prop :=
  ∀ (i : Instr) (s s' : State), isRefresh i = true → s.cfg = s'.cfg → s.chan = s'.chan → s.bind = s'.bind → s.lane = s'.lane →
    ∃ t t', exec i s = .next t ∧ exec i s' = .next t' ∧
      (i = .rsRise ∨ i = .rsAny → t.outRs = t'.outRs) ∧ (i = .gmiiRefresh → t.outGmii = t'.outGmii) ∧
      (i = .tmdsRefresh → t.outTmds = t'.outTmds)

/-- Reset (10_state.md R33, 70_reset_and_hazards.md R210): from any state every channel, binding and output is absent, the lane
is 0, no command is in progress and the pattern ROM is as before; the reset state of the machine is such a state. That reset is
the function `resetEvent` is the model's choice (log entry 9), and so is the port's field (log entry 1). -/
def Obligations.ResetClearsTheState : Prop :=
  (∀ s : State, (∀ c : Fin NCH, (resetEvent s).chan[c] = none) ∧ (∀ k : Fin NSLOT, (resetEvent s).bind[k] = none) ∧
    (resetEvent s).lane = 0 ∧ (resetEvent s).outRs = none ∧ (resetEvent s).outGmii = none ∧ (resetEvent s).outTmds = none ∧
    (resetEvent s).walk = none ∧ (resetEvent s).portIn = [] ∧ (resetEvent s).cfg = s.cfg) ∧
  resetEvent State.reset = State.reset

/-- After reset (70_reset_and_hazards.md R212), whatever the configuration, every refresh yields an absent output, every read of a
channel or an output is rejected, and LANE.GET answers 0. -/
def Obligations.AfterResetNothingIsThere : Prop :=
  ∀ cfg : Config,
    (∃ t, exec .rsRise (State.resetWith cfg) = .next t ∧ t.outRs = none) ∧
    (∃ t, exec .rsAny (State.resetWith cfg) = .next t ∧ t.outRs = none) ∧
    (∃ t, exec .gmiiRefresh (State.resetWith cfg) = .next t ∧ t.outGmii = none) ∧
    (∃ t, exec .tmdsRefresh (State.resetWith cfg) = .next t ∧ t.outTmds = none) ∧
    (∀ (a : Octet) (idx : PortWord),
      exec (.chRd a idx) (State.resetWith cfg) = .next ((State.resetWith cfg).answered .reject []) ∧
      exec (.outRd a idx) (State.resetWith cfg) = .next ((State.resetWith cfg).answered .reject [])) ∧
    (∀ f k : PortWord, exec (.outByte f k) (State.resetWith cfg) = .next ((State.resetWith cfg).answered .reject [])) ∧
    exec .laneGet (State.resetWith cfg) = .next ((State.resetWith cfg).answered .ok [0])

/-! ## Invariants of every step -/

/-- Every step keeps the capture storage sound: every channel's samples sorted without overlap, inside the tick range, their
values inside the width, the width legal, the length inside the depth (10_state.md R12, 40_fifo.md R99). -/
def Obligations.StepKeepsTheStorageSound : Prop :=
  ∀ s t : State, s.StorageSound → step s = .next t → t.StorageSound

/-- Every step keeps `out[0]` a capture of R12, R16 and R32, given a sound storage. -/
def Obligations.StepKeepsTheResamplerOutputSound : Prop :=
  ∀ s t : State, s.StorageSound → s.RsSound → step s = .next t → t.RsSound

/-- Every step keeps the frames of `out[1]` non-empty, disjoint and within the depth (R17, R32, 43_framer.md R146), given a sound
storage. -/
def Obligations.StepKeepsTheFramesSound : Prop :=
  ∀ s t : State, s.StorageSound → s.GmiiSound → step s = .next t → t.GmiiSound

/-- Every step keeps the symbols of `out[2]` present, abutting, lawful and within the depth, in an open classification as in the
installed output (R18, R32, 45_tmds_classify.md R180, R181, 60_exceptions.md R195), given a sound storage. The open
classification as a field of the state is the model's choice (log entry 2). -/
def Obligations.StepKeepsTheSymbolsSound : Prop :=
  ∀ s t : State, s.StorageSound → s.TmdsSound → step s = .next t → t.TmdsSound

/-- The reset state of the machine has every invariant, and so has the reset state of every configuration. -/
def Obligations.ResetIsSound : Prop :=
  (State.reset.StorageSound ∧ State.reset.RsSound ∧ State.reset.GmiiSound ∧ State.reset.TmdsSound ∧ State.reset.walk = none) ∧
  ∀ cfg : Config, (State.resetWith cfg).StorageSound ∧ (State.resetWith cfg).RsSound ∧ (State.resetWith cfg).GmiiSound ∧
    (State.resetWith cfg).TmdsSound ∧ (State.resetWith cfg).walk = none
end

