-- ==== Sys2Proof/Laws/State.lean ====
section
/-! SUPPORT. One lemma per field and update of the state record, all true by unfolding; no later proof unfolds a record
update. -/

namespace Sys2Proof.Machine

variable (s : State)

/-! ### `State.putChan` -/

@[simp] theorem State.putChan_cfg (c : Fin NCH) (v : Option Capture) : (s.putChan c v).cfg = s.cfg := rfl
@[simp] theorem State.putChan_chan (c : Fin NCH) (v : Option Capture) : (s.putChan c v).chan = s.chan.set c v := rfl
@[simp] theorem State.putChan_bind (c : Fin NCH) (v : Option Capture) : (s.putChan c v).bind = s.bind := rfl
@[simp] theorem State.putChan_lane (c : Fin NCH) (v : Option Capture) : (s.putChan c v).lane = s.lane := rfl
@[simp] theorem State.putChan_outRs (c : Fin NCH) (v : Option Capture) : (s.putChan c v).outRs = s.outRs := rfl
@[simp] theorem State.putChan_outGmii (c : Fin NCH) (v : Option Capture) : (s.putChan c v).outGmii = s.outGmii := rfl
@[simp] theorem State.putChan_outTmds (c : Fin NCH) (v : Option Capture) : (s.putChan c v).outTmds = s.outTmds := rfl
@[simp] theorem State.putChan_walk (c : Fin NCH) (v : Option Capture) : (s.putChan c v).walk = s.walk := rfl
@[simp] theorem State.putChan_portIn (c : Fin NCH) (v : Option Capture) : (s.putChan c v).portIn = s.portIn := rfl
@[simp] theorem State.putChan_response (c : Fin NCH) (v : Option Capture) : (s.putChan c v).response = s.response := rfl

/-! ### `State.putBind` -/

@[simp] theorem State.putBind_cfg (k : Fin NSLOT) (v : Option (Fin NCH)) : (s.putBind k v).cfg = s.cfg := rfl
@[simp] theorem State.putBind_chan (k : Fin NSLOT) (v : Option (Fin NCH)) : (s.putBind k v).chan = s.chan := rfl
@[simp] theorem State.putBind_bind (k : Fin NSLOT) (v : Option (Fin NCH)) : (s.putBind k v).bind = s.bind.set k v := rfl
@[simp] theorem State.putBind_lane (k : Fin NSLOT) (v : Option (Fin NCH)) : (s.putBind k v).lane = s.lane := rfl
@[simp] theorem State.putBind_outRs (k : Fin NSLOT) (v : Option (Fin NCH)) : (s.putBind k v).outRs = s.outRs := rfl
@[simp] theorem State.putBind_outGmii (k : Fin NSLOT) (v : Option (Fin NCH)) : (s.putBind k v).outGmii = s.outGmii := rfl
@[simp] theorem State.putBind_outTmds (k : Fin NSLOT) (v : Option (Fin NCH)) : (s.putBind k v).outTmds = s.outTmds := rfl
@[simp] theorem State.putBind_walk (k : Fin NSLOT) (v : Option (Fin NCH)) : (s.putBind k v).walk = s.walk := rfl
@[simp] theorem State.putBind_portIn (k : Fin NSLOT) (v : Option (Fin NCH)) : (s.putBind k v).portIn = s.portIn := rfl
@[simp] theorem State.putBind_response (k : Fin NSLOT) (v : Option (Fin NCH)) : (s.putBind k v).response = s.response := rfl

/-! ### `State.putLane` -/

@[simp] theorem State.putLane_cfg (v : Fin 3) : (s.putLane v).cfg = s.cfg := rfl
@[simp] theorem State.putLane_chan (v : Fin 3) : (s.putLane v).chan = s.chan := rfl
@[simp] theorem State.putLane_bind (v : Fin 3) : (s.putLane v).bind = s.bind := rfl
@[simp] theorem State.putLane_lane (v : Fin 3) : (s.putLane v).lane = v := rfl
@[simp] theorem State.putLane_outRs (v : Fin 3) : (s.putLane v).outRs = s.outRs := rfl
@[simp] theorem State.putLane_outGmii (v : Fin 3) : (s.putLane v).outGmii = s.outGmii := rfl
@[simp] theorem State.putLane_outTmds (v : Fin 3) : (s.putLane v).outTmds = s.outTmds := rfl
@[simp] theorem State.putLane_walk (v : Fin 3) : (s.putLane v).walk = s.walk := rfl
@[simp] theorem State.putLane_portIn (v : Fin 3) : (s.putLane v).portIn = s.portIn := rfl
@[simp] theorem State.putLane_response (v : Fin 3) : (s.putLane v).response = s.response := rfl

/-! ### `State.installRs` -/

@[simp] theorem State.installRs_cfg (v : Option Capture) : (s.installRs v).cfg = s.cfg := rfl
@[simp] theorem State.installRs_chan (v : Option Capture) : (s.installRs v).chan = s.chan := rfl
@[simp] theorem State.installRs_bind (v : Option Capture) : (s.installRs v).bind = s.bind := rfl
@[simp] theorem State.installRs_lane (v : Option Capture) : (s.installRs v).lane = s.lane := rfl
@[simp] theorem State.installRs_outRs (v : Option Capture) : (s.installRs v).outRs = v := rfl
@[simp] theorem State.installRs_outGmii (v : Option Capture) : (s.installRs v).outGmii = s.outGmii := rfl
@[simp] theorem State.installRs_outTmds (v : Option Capture) : (s.installRs v).outTmds = s.outTmds := rfl
@[simp] theorem State.installRs_walk (v : Option Capture) : (s.installRs v).walk = s.walk := rfl
@[simp] theorem State.installRs_portIn (v : Option Capture) : (s.installRs v).portIn = s.portIn := rfl
@[simp] theorem State.installRs_response (v : Option Capture) : (s.installRs v).response = s.response := rfl

/-! ### `State.installGmii` -/

@[simp] theorem State.installGmii_cfg (v : Option GmiiCapture) : (s.installGmii v).cfg = s.cfg := rfl
@[simp] theorem State.installGmii_chan (v : Option GmiiCapture) : (s.installGmii v).chan = s.chan := rfl
@[simp] theorem State.installGmii_bind (v : Option GmiiCapture) : (s.installGmii v).bind = s.bind := rfl
@[simp] theorem State.installGmii_lane (v : Option GmiiCapture) : (s.installGmii v).lane = s.lane := rfl
@[simp] theorem State.installGmii_outRs (v : Option GmiiCapture) : (s.installGmii v).outRs = s.outRs := rfl
@[simp] theorem State.installGmii_outGmii (v : Option GmiiCapture) : (s.installGmii v).outGmii = v := rfl
@[simp] theorem State.installGmii_outTmds (v : Option GmiiCapture) : (s.installGmii v).outTmds = s.outTmds := rfl
@[simp] theorem State.installGmii_walk (v : Option GmiiCapture) : (s.installGmii v).walk = s.walk := rfl
@[simp] theorem State.installGmii_portIn (v : Option GmiiCapture) : (s.installGmii v).portIn = s.portIn := rfl
@[simp] theorem State.installGmii_response (v : Option GmiiCapture) : (s.installGmii v).response = s.response := rfl

/-! ### `State.installTmds` -/

@[simp] theorem State.installTmds_cfg (v : Option TmdsCapture) : (s.installTmds v).cfg = s.cfg := rfl
@[simp] theorem State.installTmds_chan (v : Option TmdsCapture) : (s.installTmds v).chan = s.chan := rfl
@[simp] theorem State.installTmds_bind (v : Option TmdsCapture) : (s.installTmds v).bind = s.bind := rfl
@[simp] theorem State.installTmds_lane (v : Option TmdsCapture) : (s.installTmds v).lane = s.lane := rfl
@[simp] theorem State.installTmds_outRs (v : Option TmdsCapture) : (s.installTmds v).outRs = s.outRs := rfl
@[simp] theorem State.installTmds_outGmii (v : Option TmdsCapture) : (s.installTmds v).outGmii = s.outGmii := rfl
@[simp] theorem State.installTmds_outTmds (v : Option TmdsCapture) : (s.installTmds v).outTmds = v := rfl
@[simp] theorem State.installTmds_walk (v : Option TmdsCapture) : (s.installTmds v).walk = s.walk := rfl
@[simp] theorem State.installTmds_portIn (v : Option TmdsCapture) : (s.installTmds v).portIn = s.portIn := rfl
@[simp] theorem State.installTmds_response (v : Option TmdsCapture) : (s.installTmds v).response = s.response := rfl

/-! ### `State.putWalk` -/

@[simp] theorem State.putWalk_cfg (v : Option Walk) : (s.putWalk v).cfg = s.cfg := rfl
@[simp] theorem State.putWalk_chan (v : Option Walk) : (s.putWalk v).chan = s.chan := rfl
@[simp] theorem State.putWalk_bind (v : Option Walk) : (s.putWalk v).bind = s.bind := rfl
@[simp] theorem State.putWalk_lane (v : Option Walk) : (s.putWalk v).lane = s.lane := rfl
@[simp] theorem State.putWalk_outRs (v : Option Walk) : (s.putWalk v).outRs = s.outRs := rfl
@[simp] theorem State.putWalk_outGmii (v : Option Walk) : (s.putWalk v).outGmii = s.outGmii := rfl
@[simp] theorem State.putWalk_outTmds (v : Option Walk) : (s.putWalk v).outTmds = s.outTmds := rfl
@[simp] theorem State.putWalk_walk (v : Option Walk) : (s.putWalk v).walk = v := rfl
@[simp] theorem State.putWalk_portIn (v : Option Walk) : (s.putWalk v).portIn = s.portIn := rfl
@[simp] theorem State.putWalk_response (v : Option Walk) : (s.putWalk v).response = s.response := rfl

/-! ### `State.putPort` -/

@[simp] theorem State.putPort_cfg (v : List Beat) : (s.putPort v).cfg = s.cfg := rfl
@[simp] theorem State.putPort_chan (v : List Beat) : (s.putPort v).chan = s.chan := rfl
@[simp] theorem State.putPort_bind (v : List Beat) : (s.putPort v).bind = s.bind := rfl
@[simp] theorem State.putPort_lane (v : List Beat) : (s.putPort v).lane = s.lane := rfl
@[simp] theorem State.putPort_outRs (v : List Beat) : (s.putPort v).outRs = s.outRs := rfl
@[simp] theorem State.putPort_outGmii (v : List Beat) : (s.putPort v).outGmii = s.outGmii := rfl
@[simp] theorem State.putPort_outTmds (v : List Beat) : (s.putPort v).outTmds = s.outTmds := rfl
@[simp] theorem State.putPort_walk (v : List Beat) : (s.putPort v).walk = s.walk := rfl
@[simp] theorem State.putPort_portIn (v : List Beat) : (s.putPort v).portIn = v := rfl
@[simp] theorem State.putPort_response (v : List Beat) : (s.putPort v).response = s.response := rfl

/-! ### `State.answer` -/

@[simp] theorem State.answer_cfg (r : Response) : (s.answer r).cfg = s.cfg := rfl
@[simp] theorem State.answer_chan (r : Response) : (s.answer r).chan = s.chan := rfl
@[simp] theorem State.answer_bind (r : Response) : (s.answer r).bind = s.bind := rfl
@[simp] theorem State.answer_lane (r : Response) : (s.answer r).lane = s.lane := rfl
@[simp] theorem State.answer_outRs (r : Response) : (s.answer r).outRs = s.outRs := rfl
@[simp] theorem State.answer_outGmii (r : Response) : (s.answer r).outGmii = s.outGmii := rfl
@[simp] theorem State.answer_outTmds (r : Response) : (s.answer r).outTmds = s.outTmds := rfl
@[simp] theorem State.answer_walk (r : Response) : (s.answer r).walk = s.walk := rfl
@[simp] theorem State.answer_portIn (r : Response) : (s.answer r).portIn = s.portIn := rfl
@[simp] theorem State.answer_response (r : Response) : (s.answer r).response = some r := rfl

/-! ### `State.ok` -/

@[simp] theorem State.ok_cfg (ws : List PortWord) : (s.ok ws).cfg = s.cfg := rfl
@[simp] theorem State.ok_chan (ws : List PortWord) : (s.ok ws).chan = s.chan := rfl
@[simp] theorem State.ok_bind (ws : List PortWord) : (s.ok ws).bind = s.bind := rfl
@[simp] theorem State.ok_lane (ws : List PortWord) : (s.ok ws).lane = s.lane := rfl
@[simp] theorem State.ok_outRs (ws : List PortWord) : (s.ok ws).outRs = s.outRs := rfl
@[simp] theorem State.ok_outGmii (ws : List PortWord) : (s.ok ws).outGmii = s.outGmii := rfl
@[simp] theorem State.ok_outTmds (ws : List PortWord) : (s.ok ws).outTmds = s.outTmds := rfl
@[simp] theorem State.ok_walk (ws : List PortWord) : (s.ok ws).walk = s.walk := rfl
@[simp] theorem State.ok_portIn (ws : List PortWord) : (s.ok ws).portIn = s.portIn := rfl
@[simp] theorem State.ok_response (ws : List PortWord) : (s.ok ws).response = some ⟨.ok, ws⟩ := rfl

/-! ### `State.reject` -/

@[simp] theorem State.reject_cfg : (s.reject).cfg = s.cfg := rfl
@[simp] theorem State.reject_chan : (s.reject).chan = s.chan := rfl
@[simp] theorem State.reject_bind : (s.reject).bind = s.bind := rfl
@[simp] theorem State.reject_lane : (s.reject).lane = s.lane := rfl
@[simp] theorem State.reject_outRs : (s.reject).outRs = s.outRs := rfl
@[simp] theorem State.reject_outGmii : (s.reject).outGmii = s.outGmii := rfl
@[simp] theorem State.reject_outTmds : (s.reject).outTmds = s.outTmds := rfl
@[simp] theorem State.reject_walk : (s.reject).walk = s.walk := rfl
@[simp] theorem State.reject_portIn : (s.reject).portIn = s.portIn := rfl
@[simp] theorem State.reject_response : (s.reject).response = some ⟨.reject, []⟩ := rfl

/-! ### `State.answered` -/

@[simp] theorem State.answered_cfg (st : Status) (ws : List PortWord) : (s.answered st ws).cfg = s.cfg := rfl
@[simp] theorem State.answered_chan (st : Status) (ws : List PortWord) : (s.answered st ws).chan = s.chan := rfl
@[simp] theorem State.answered_bind (st : Status) (ws : List PortWord) : (s.answered st ws).bind = s.bind := rfl
@[simp] theorem State.answered_lane (st : Status) (ws : List PortWord) : (s.answered st ws).lane = s.lane := rfl
@[simp] theorem State.answered_outRs (st : Status) (ws : List PortWord) : (s.answered st ws).outRs = s.outRs := rfl
@[simp] theorem State.answered_outGmii (st : Status) (ws : List PortWord) : (s.answered st ws).outGmii = s.outGmii := rfl
@[simp] theorem State.answered_outTmds (st : Status) (ws : List PortWord) : (s.answered st ws).outTmds = s.outTmds := rfl
@[simp] theorem State.answered_walk (st : Status) (ws : List PortWord) : (s.answered st ws).walk = s.walk := rfl
@[simp] theorem State.answered_portIn (st : Status) (ws : List PortWord) : (s.answered st ws).portIn = s.portIn := rfl
@[simp] theorem State.answered_response (st : Status) (ws : List PortWord) : (s.answered st ws).response = some ⟨st, ws⟩ := rfl

/-! ### `State.refreshFailed` and `State.installWalk` -/

@[simp] theorem State.installAbsent_cfg (u : OutUnit) : (s.installAbsent u).cfg = s.cfg := by cases u <;> rfl
@[simp] theorem State.refreshFailed_cfg (u : OutUnit) (e : RefreshError) : (s.refreshFailed u e).cfg = s.cfg := by cases u <;> rfl
@[simp] theorem State.installAbsent_chan (u : OutUnit) : (s.installAbsent u).chan = s.chan := by cases u <;> rfl
@[simp] theorem State.refreshFailed_chan (u : OutUnit) (e : RefreshError) : (s.refreshFailed u e).chan = s.chan := by cases u <;> rfl
@[simp] theorem State.installAbsent_bind (u : OutUnit) : (s.installAbsent u).bind = s.bind := by cases u <;> rfl
@[simp] theorem State.refreshFailed_bind (u : OutUnit) (e : RefreshError) : (s.refreshFailed u e).bind = s.bind := by cases u <;> rfl
@[simp] theorem State.installAbsent_lane (u : OutUnit) : (s.installAbsent u).lane = s.lane := by cases u <;> rfl
@[simp] theorem State.refreshFailed_lane (u : OutUnit) (e : RefreshError) : (s.refreshFailed u e).lane = s.lane := by cases u <;> rfl
@[simp] theorem State.installAbsent_walk (u : OutUnit) : (s.installAbsent u).walk = s.walk := by cases u <;> rfl
@[simp] theorem State.refreshFailed_walk (u : OutUnit) (e : RefreshError) : (s.refreshFailed u e).walk = s.walk := by cases u <;> rfl
@[simp] theorem State.installAbsent_portIn (u : OutUnit) : (s.installAbsent u).portIn = s.portIn := by cases u <;> rfl
@[simp] theorem State.refreshFailed_portIn (u : OutUnit) (e : RefreshError) : (s.refreshFailed u e).portIn = s.portIn := by cases u <;> rfl
@[simp] theorem State.refreshFailed_response (u : OutUnit) (e : RefreshError) : (s.refreshFailed u e).response = some ⟨.ok, []⟩ := rfl
@[simp] theorem State.refreshFailed_rs_outRs (e : RefreshError) : (s.refreshFailed .rs e).outRs = none := rfl
@[simp] theorem State.refreshFailed_gmii_outRs (e : RefreshError) : (s.refreshFailed .gmii e).outRs = s.outRs := rfl
@[simp] theorem State.refreshFailed_tmds_outRs (e : RefreshError) : (s.refreshFailed .tmds e).outRs = s.outRs := rfl
@[simp] theorem State.refreshFailed_rs_outGmii (e : RefreshError) : (s.refreshFailed .rs e).outGmii = s.outGmii := rfl
@[simp] theorem State.refreshFailed_gmii_outGmii (e : RefreshError) : (s.refreshFailed .gmii e).outGmii = none := rfl
@[simp] theorem State.refreshFailed_tmds_outGmii (e : RefreshError) : (s.refreshFailed .tmds e).outGmii = s.outGmii := rfl
@[simp] theorem State.refreshFailed_rs_outTmds (e : RefreshError) : (s.refreshFailed .rs e).outTmds = s.outTmds := rfl
@[simp] theorem State.refreshFailed_gmii_outTmds (e : RefreshError) : (s.refreshFailed .gmii e).outTmds = s.outTmds := rfl
@[simp] theorem State.refreshFailed_tmds_outTmds (e : RefreshError) : (s.refreshFailed .tmds e).outTmds = none := rfl
@[simp] theorem State.installWalk_cfg (u : Walk) : (s.installWalk u).cfg = s.cfg := rfl
@[simp] theorem State.installWalk_chan (u : Walk) : (s.installWalk u).chan = s.chan := rfl
@[simp] theorem State.installWalk_bind (u : Walk) : (s.installWalk u).bind = s.bind := rfl
@[simp] theorem State.installWalk_lane (u : Walk) : (s.installWalk u).lane = s.lane := rfl
@[simp] theorem State.installWalk_outRs (u : Walk) : (s.installWalk u).outRs = s.outRs := rfl
@[simp] theorem State.installWalk_outGmii (u : Walk) : (s.installWalk u).outGmii = s.outGmii := rfl
@[simp] theorem State.installWalk_outTmds (u : Walk) : (s.installWalk u).outTmds = some u.capture := rfl
@[simp] theorem State.installWalk_walk (u : Walk) : (s.installWalk u).walk = s.walk := rfl
@[simp] theorem State.installWalk_portIn (u : Walk) : (s.installWalk u).portIn = s.portIn := rfl
@[simp] theorem State.installWalk_response (u : Walk) : (s.installWalk u).response = some ⟨.ok, []⟩ := rfl

/-! ### `Walk.emit` -/

variable (u : Walk) (sym : Symbol)

@[simp] theorem Walk.emit_stream : (u.emit sym).stream = u.stream := rfl
@[simp] theorem Walk.emit_header : (u.emit sym).header = u.header := rfl
@[simp] theorem Walk.emit_lane : (u.emit sym).lane = u.lane := rfl
@[simp] theorem Walk.emit_cursor : (u.emit sym).cursor = u.cursor + 10 := rfl
@[simp] theorem Walk.emit_last : (u.emit sym).last = sym.leaves := rfl
@[simp] theorem Walk.emit_symbols : (u.emit sym).symbols = u.symbols ++
    [⟨offsetAt u.stream u.cursor, (symbolStop u.stream u.cursor - offsetAt u.stream u.cursor).toNat, sym⟩] := rfl

/-! ### The reset state -/

variable (cfg : Config)

@[simp] theorem State.resetWith_cfg : (State.resetWith cfg).cfg = cfg := rfl
@[simp] theorem State.resetWith_lane : (State.resetWith cfg).lane = 0 := rfl
@[simp] theorem State.resetWith_outRs : (State.resetWith cfg).outRs = none := rfl
@[simp] theorem State.resetWith_outGmii : (State.resetWith cfg).outGmii = none := rfl
@[simp] theorem State.resetWith_outTmds : (State.resetWith cfg).outTmds = none := rfl
@[simp] theorem State.resetWith_walk : (State.resetWith cfg).walk = none := rfl
@[simp] theorem State.resetWith_portIn : (State.resetWith cfg).portIn = [] := rfl
@[simp] theorem State.resetWith_response : (State.resetWith cfg).response = none := rfl
theorem State.resetWith_chan (c : Fin NCH) : (State.resetWith cfg).chan[c] = none := by
  simp [State.resetWith]
theorem State.resetWith_bind (k : Fin NSLOT) : (State.resetWith cfg).bind[k] = none := by
  simp [State.resetWith]

end Sys2Proof.Machine
end

