-- ==== Sys2Proof/Laws/Ops.lean ====
section
/-! SUPPORT. One lemma for each operand form and shared operation that says once what it can do. -/

namespace Sys2Proof.Machine

/-! ## Operand forms -/

/-- A channel number is the field itself, below 8. -/
theorem channelNumber_eq_some (a : Octet) (c : Fin NCH) : channelNumber a = some c ↔ a.toNat = c := by
  unfold channelNumber
  split
  · simp [Fin.ext_iff]
  · have := c.isLt
    simp
    omega

/-- No channel number: the field is 8 or more. -/
theorem channelNumber_eq_none (a : Octet) : channelNumber a = none ↔ 8 ≤ a.toNat := by
  unfold channelNumber
  split <;> simp [NCH] at * <;> omega

/-- A slot number is the field itself, below 8. -/
theorem slotNumber_eq_some (a : Octet) (k : Fin NSLOT) : slotNumber a = some k ↔ a.toNat = k := by
  unfold slotNumber
  split
  · simp [Fin.ext_iff]
  · have := k.isLt
    simp
    omega

/-- No slot number: the field is 8 or more. -/
theorem slotNumber_eq_none (a : Octet) : slotNumber a = none ↔ 8 ≤ a.toNat := by
  unfold slotNumber
  split <;> simp [NSLOT] at * <;> omega

/-- A lane number is the field itself, at most 2. -/
theorem laneNumber_eq_some (v : BitVec 16) (l : Fin 3) : laneNumber v = some l ↔ v.toNat = l := by
  unfold laneNumber
  split
  · simp [Fin.ext_iff]
  · have := l.isLt
    simp
    omega

/-- No lane number: the field is above 2. -/
theorem laneNumber_eq_none (v : BitVec 16) : laneNumber v = none ↔ 3 ≤ v.toNat := by
  unfold laneNumber
  split <;> simp <;> omega

/-- The field that holds the number of a channel reads as that channel. -/
@[simp] theorem channelNumber_ofNat (c : Fin NCH) : channelNumber (BitVec.ofNat 8 c) = some c := by
  rw [channelNumber_eq_some]
  have : (c : Nat) < 8 := c.isLt
  simp
  omega

/-- The field that holds the number of a slot reads as that slot. -/
@[simp] theorem slotNumber_ofNat (k : Fin NSLOT) : slotNumber (BitVec.ofNat 8 k) = some k := by
  rw [slotNumber_eq_some]
  have : (k : Nat) < 8 := k.isLt
  simp
  omega

/-! ## Response words -/

/-- `OK` is 0 (30_encoding.md R60). -/
@[simp] theorem Status.code_ok : Status.ok.code = 0 := rfl

/-- `REJECT` is 1 (30_encoding.md R60). -/
@[simp] theorem Status.code_reject : Status.reject.code = 1 := rfl

/-- The code tells the status: two statuses with one code are one. -/
theorem Status.code_inj (a b : Status) : a.code = b.code ↔ a = b := by
  cases a <;> cases b <;> simp

/-- A STAT response has five data words (30_encoding.md R65). -/
@[simp] theorem statWords_length (d : Option Descriptor) : (statWords d).length = 5 := by
  cases d <;> rfl

/-- An entry of any output is three data words (30_encoding.md R65, R69, R70). -/
theorem outEntry_length (s : State) (u : OutUnit) (i : Nat) (ws : List PortWord) (h : s.outEntry u i = some ws) :
    ws.length = 3 := by
  cases u <;> obtain ⟨_, _, rfl⟩ := Option.map_eq_some_iff.1 h <;> rfl

/-- What the word of a length holds: the length modulo 2^64 (log entry 11). -/
theorem countWord_toNat (n : Nat) : (countWord n).toNat = n % 2 ^ 64 := BitVec.toNat_ofNat n 64

/-- A length that fits its word is answered as it is (30_encoding.md R65). -/
theorem countWord_toNat_of_lt (n : Nat) (h : n < 2 ^ 64) : (countWord n).toNat = n := by
  rw [countWord_toNat, Nat.mod_eq_of_lt h]

/-! ## Captures -/

/-- Everything CH.PUSH tests on a present capture (40_fifo.md R91). -/
theorem pushAccepts_iff (cfg : Config) (cap : Capture) (o d : Int) (v : PortWord) :
    pushAccepts cfg cap o d v = true ↔
      cfg.depth ≠ some cap.samples.length ∧ 0 ≤ d ∧ o + d ≤ TMAX ∧ v.toNat < 2 ^ cap.width ∧
        ∀ x, cap.samples.getLast? = some x → x.stop ≤ o := by
  unfold pushAccepts channelFull startsAfter
  cases cap.samples.getLast? <;> simp [and_assoc]

/-- Reading the channel just written. -/
theorem putChan_same (s : State) (c : Fin NCH) (v : Option Capture) : (s.putChan c v).chan[c] = v := by
  simp [State.putChan]

/-- Reading another channel than the one written. -/
theorem putChan_other (s : State) (c c' : Fin NCH) (v : Option Capture) (h : c ≠ c') :
    (s.putChan c v).chan[c'] = s.chan[c'] := by
  have : (c : Nat) ≠ c' := fun e => h (Fin.ext e)
  simp [this]

/-- Reading the binding just written. -/
theorem putBind_same (s : State) (k : Fin NSLOT) (v : Option (Fin NCH)) : (s.putBind k v).bind[k] = v := by
  simp [State.putBind]

/-- Reading another binding than the one written. -/
theorem putBind_other (s : State) (k k' : Fin NSLOT) (v : Option (Fin NCH)) (h : k ≠ k') :
    (s.putBind k v).bind[k'] = s.bind[k'] := by
  have : (k : Nat) ≠ k' := fun e => h (Fin.ext e)
  simp [this]

/-! ## Gathering -/

/-- A slot gives its capture exactly when it is bound to a channel that holds it. -/
theorem boundCapture_eq_ok (s : State) (k : Fin NSLOT) (cap : Capture) :
    s.boundCapture k = .ok cap ↔ s.slotCapture k = some cap := by
  unfold State.boundCapture State.slotCapture
  cases h : s.bind[k] with
  | none => simp
  | some c => cases h' : s.chan[c] <;> simp [h', -Fin.getElem_fin]

/-- A slot that gives no capture fails with `E_UNBOUND`. -/
theorem boundCapture_eq_error (s : State) (k : Fin NSLOT) (e : RefreshError) :
    s.boundCapture k = .error e ↔ s.slotCapture k = none ∧ e = .unbound := by
  unfold State.boundCapture State.slotCapture
  cases h : s.bind[k] with
  | none => simp [eq_comm]
  | some c => cases h' : s.chan[c] <;> simp [h', eq_comm, -Fin.getElem_fin]

/-- What gathering two slots gives (41_config.md R116). -/
theorem gather_pair (s : State) (k l : Fin NSLOT) (x y : Capture) (hx : s.slotCapture k = some x)
    (hy : s.slotCapture l = some y) :
    s.gather [k, l] =
      if typeOK k x = true ∧ typeOK l y = true ∧ y.header = x.header then .ok [x, y] else .error .type := by
  rw [← boundCapture_eq_ok] at hx hy
  simp only [State.gather, State.boundCaptures, hx, hy, sameHeaders, List.zipWith, List.all_cons, List.all_nil, id,
    Bool.and_true, Bool.and_eq_true, beq_iff_eq, and_assoc]

/-- Gathering two slots fails when either is missing. -/
theorem gather_pair_unbound (s : State) (k l : Fin NSLOT) (h : s.slotCapture k = none ∨ s.slotCapture l = none) :
    s.gather [k, l] = .error .unbound := by
  simp only [State.gather, State.boundCaptures]
  cases hk : s.boundCapture k with
  | error e => simp only [((boundCapture_eq_error s k e).1 hk).2]
  | ok x =>
    cases hl : s.boundCapture l with
    | error e => simp only [((boundCapture_eq_error s l e).1 hl).2]
    | ok y =>
      rw [boundCapture_eq_ok] at hk hl
      simp [hk, hl] at h

/-! ## Windows -/

/-- All a window class can do: it answers a next state exactly when a classification with a complete window stands open,
and then it emits its symbol and changes nothing else. -/
theorem onWindow_eq_next (f : Config → WindowContext → Symbol) (s t : State) :
    onWindow f s = .next t ↔
      ∃ u, s.walk = some u ∧ u.hasWindow = true ∧ t = s.putWalk (some (u.emit (f s.cfg u.context))) := by
  unfold onWindow
  cases s.walk with
  | none => simp
  | some u =>
    cases h : u.hasWindow
    · simp [h]
    · simpa [h] using eq_comm

/-- A window class with a complete window in an open classification. -/
theorem onWindow_of_window (f : Config → WindowContext → Symbol) (s : State) (u : Walk) (hu : s.walk = some u)
    (hw : u.hasWindow = true) : onWindow f s = .next (s.putWalk (some (u.emit (f s.cfg u.context)))) := by
  simp [onWindow, hu, hw]

/-- All the steps of `fetch`: a command when the port is free, a window while a classification stands open. -/
theorem fetch_closed (s : State) (h : s.walk = none) : fetch s = fetchCommand s := by
  simp [fetch, h]

/-- With a classification open, the port waits. -/
theorem fetch_open (s : State) (u : Walk) (h : s.walk = some u) : fetch s = fetchWindow s u := by
  simp [fetch, h]

end Sys2Proof.Machine
end

