-- ==== Sys2Proof/Laws/Memory.lean ====
section
/-! SUPPORT. The capture storage keeps its form under each operation that writes it: opening, appending, dropping. -/

namespace Sys2Proof.Machine

/-- The storage is well-formed when each channel is. -/
theorem memory_wf_iff (depth : Option Nat) (m : Memory) :
    Memory.wf depth m = true ↔ ∀ c : Fin NCH, ∀ cap, m[c] = some cap → cap.wf depth TMAX = true := by
  unfold Memory.wf
  rw [List.all_eq_true]
  constructor
  · intro h c cap hc
    have := h m[c] (by simp)
    simpa [hc] using this
  · intro h o ho
    obtain ⟨n, hn, rfl⟩ := List.getElem_of_mem ho
    cases ho' : m.toList[n] with
    | none => rfl
    | some cap => exact h ⟨n, by simpa using hn⟩ cap (by simpa using ho')

/-- Writing a channel keeps the form when what is written has it. -/
theorem memory_wf_set (depth : Option Nat) (m : Memory) (c : Fin NCH) (v : Option Capture)
    (hm : Memory.wf depth m = true) (hv : ∀ cap, v = some cap → cap.wf depth TMAX = true) :
    Memory.wf depth (m.set c v) = true := by
  rw [memory_wf_iff] at hm ⊢
  intro c' cap h
  by_cases e : (c : Nat) = c'
  · have : c = c' := Fin.ext e
    subst this
    exact hv cap (by simpa using h)
  · exact hm c' cap (by simpa [Vector.getElem_set, e] using h)

/-- Dropping a channel keeps the form. -/
theorem memory_wf_drop (depth : Option Nat) (m : Memory) (c : Fin NCH) (hm : Memory.wf depth m = true) :
    Memory.wf depth (m.set c none) = true :=
  memory_wf_set depth m c none hm (by simp)

/-- A new, empty capture with a legal descriptor is well-formed. -/
theorem capture_wf_empty (depth : Option Nat) (k : Kind) (w : Nat) (h : Header) (hd : legalDescriptor k w = true) :
    Capture.wf depth TMAX ⟨k, w, h, []⟩ = true := by
  cases depth <;> simp [Capture.wf, hd, ordered, withinDepth]

/-- What CH.OPEN accepts is a legal descriptor. -/
theorem descriptorOf_legal (kind width : Octet) (k : Kind) (w : Nat) (h : descriptorOf kind width = some (k, w)) :
    legalDescriptor k w = true := by
  unfold descriptorOf at h
  split at h
  · split at h
    · cases h
      rfl
    · cases h
  · split at h
    · rename_i hw
      cases h
      simpa [legalDescriptor] using hw
    · cases h
  · cases h

/-- The ordering invariant of a list with one more sample at the tail. -/
theorem ordered_append (l : List Sample) (x : Sample) :
    ordered (l ++ [x]) = true ↔ ordered l = true ∧ ∀ y, l.getLast? = some y → y.stop ≤ x.offset := by
  induction l with
  | nil => simp [ordered]
  | cons a l ih =>
    cases l with
    | nil => simp [ordered]
    | cons b l =>
      have := ih
      simp only [List.cons_append, ordered, Bool.and_eq_true, decide_eq_true_eq] at this ⊢
      rw [this, and_assoc]
      simp [List.getLast?_cons_cons]

/-- Appending an accepted sample keeps the form (40_fifo.md R91). -/
theorem capture_wf_append (depth : Option Nat) (cap : Capture) (x : Sample) (hc : cap.wf depth TMAX = true)
    (hx : x.fits TMAX cap.width = true) (hl : ∀ y, cap.samples.getLast? = some y → y.stop ≤ x.offset)
    (hd : depth ≠ some cap.samples.length) : (cap.append x).wf depth TMAX = true := by
  simp only [Capture.wf, Bool.and_eq_true, Capture.append] at hc ⊢
  obtain ⟨⟨⟨h1, h2⟩, h3⟩, h4⟩ := hc
  refine ⟨⟨⟨h1, ?_⟩, (ordered_append _ _).2 ⟨h3, hl⟩⟩, ?_⟩
  · rw [List.all_append, h2]
    simp [hx]
  · cases depth with
    | none => rfl
    | some d =>
      simp [withinDepth] at h4 hd ⊢
      omega

/-- The reset storage has the form. -/
theorem memory_wf_reset (cfg : Config) : Memory.wf cfg.depth (State.resetWith cfg).chan = true := by
  rw [memory_wf_iff]
  intro c cap h
  rw [State.resetWith_chan] at h
  cases h

end Sys2Proof.Machine
end

