-- ==== Sys2Proof/Laws/PerInstr.lean ====
section
/-! SUPPORT. The family `Encoding`: how long the encoding of an instruction is (30_encoding.md R61, R72), one lemma per
constructor. -/

namespace Sys2Proof.Laws.Encoding

open Sys2Proof Sys2Proof.Machine

/-- A command is a header and exactly the operand words that the format of its opcode asks for, two beats each (R61); a
window class is no command. -/
def Statement (i : Instr) : Prop :=
  ∀ cfg : Config,
    match encode cfg i with
    | .command [] => False
    | .command (h :: words) => words.length = 2 * (formatOf (opField h)).operandWords ∧ isCommand i = true
    | .window _ => isCommand i = false

/-- The opcode of a header put together from its fields is the opcode it was given. -/
theorem opField_headerWord (b : BitVec 16) (a op : Octet) : opField (headerWord b a op) = op := by
  unfold opField headerWord
  apply BitVec.eq_of_getLsbD_eq
  intro i hi
  simp only [BitVec.getLsbD_append, BitVec.getLsbD_extractLsb']
  grind

theorem chOpen (ch kind width : Octet) (ts st ss : PortWord) : Statement (.chOpen ch kind width ts st ss) := by
  intro cfg
  simp [encode, opField_headerWord, formatOf, Format.operandWords, wordBeats, isCommand]
theorem chPush (ch : Octet) (o d v : PortWord) : Statement (.chPush ch o d v) := by
  intro cfg
  simp [encode, opField_headerWord, formatOf, Format.operandWords, wordBeats, isCommand]
theorem chDrop (ch : Octet) : Statement (.chDrop ch) := by
  intro cfg
  simp [encode, opField_headerWord, formatOf, Format.operandWords, isCommand]
theorem chStat (ch : Octet) : Statement (.chStat ch) := by
  intro cfg
  simp [encode, opField_headerWord, formatOf, Format.operandWords, isCommand]
theorem chRd (ch : Octet) (idx : PortWord) : Statement (.chRd ch idx) := by
  intro cfg
  simp [encode, opField_headerWord, formatOf, Format.operandWords, wordBeats, isCommand]
theorem bind (slot ch : Octet) : Statement (.bind slot ch) := by
  intro cfg
  simp [encode, opField_headerWord, formatOf, Format.operandWords, isCommand]
theorem unbind (slot : Octet) : Statement (.unbind slot) := by
  intro cfg
  simp [encode, opField_headerWord, formatOf, Format.operandWords, isCommand]
theorem bindGet (slot : Octet) : Statement (.bindGet slot) := by
  intro cfg
  simp [encode, opField_headerWord, formatOf, Format.operandWords, isCommand]
theorem laneSet (v : BitVec 16) : Statement (.laneSet v) := by
  intro cfg
  simp [encode, opField_headerWord, formatOf, Format.operandWords, isCommand]
theorem laneGet : Statement (.laneGet) := by
  intro cfg
  simp [encode, opField_headerWord, formatOf, Format.operandWords, isCommand]
theorem rsRise : Statement (.rsRise) := by
  intro cfg
  simp [encode, opField_headerWord, formatOf, Format.operandWords, isCommand]
theorem rsAny : Statement (.rsAny) := by
  intro cfg
  simp [encode, opField_headerWord, formatOf, Format.operandWords, isCommand]
theorem gmiiRefresh : Statement (.gmiiRefresh) := by
  intro cfg
  simp [encode, opField_headerWord, formatOf, Format.operandWords, isCommand]
theorem tmdsRefresh : Statement (.tmdsRefresh) := by
  intro cfg
  simp [encode, opField_headerWord, formatOf, Format.operandWords, isCommand]
theorem outStat (u : Octet) : Statement (.outStat u) := by
  intro cfg
  simp [encode, opField_headerWord, formatOf, Format.operandWords, isCommand]
theorem outRd (u : Octet) (idx : PortWord) : Statement (.outRd u idx) := by
  intro cfg
  simp [encode, opField_headerWord, formatOf, Format.operandWords, wordBeats, isCommand]
theorem outByte (f k : PortWord) : Statement (.outByte f k) := by
  intro cfg
  simp [encode, opField_headerWord, formatOf, Format.operandWords, wordBeats, isCommand]
theorem control0 : Statement (.control0) := fun _ => rfl
theorem control1 : Statement (.control1) := fun _ => rfl
theorem control2 : Statement (.control2) := fun _ => rfl
theorem control3 : Statement (.control3) := fun _ => rfl
theorem guardLane0 : Statement (.guardLane0) := fun _ => rfl
theorem guardLane1 : Statement (.guardLane1) := fun _ => rfl
theorem guardLane2 : Statement (.guardLane2) := fun _ => rfl
theorem data00 (d : Octet) : Statement (.data00 d) := fun _ => rfl
theorem data01 (d : Octet) : Statement (.data01 d) := fun _ => rfl
theorem data10 (d : Octet) : Statement (.data10 d) := fun _ => rfl
theorem data11 (d : Octet) : Statement (.data11 d) := fun _ => rfl

end Sys2Proof.Laws.Encoding
end

