-- ==== Sys2Proof/Tests/Slice0.lean ====
section
/-! SUPPORT. The tests of the model: ill-formed terms refused, every constructor's words, one-step vectors of the spec,
and, for each statement with hypotheses, a state and operands that meet them all. -/

namespace Sys2Proof.Tests

open Sys2Proof Sys2Proof.Machine

/-! ## Ill-formed terms, one for each check -/

/-- A table with two equal control codes. -/
def twinControls : Config := { Config.default with ctrl := #v[0x154#10, 0x154#10, 0x0AB#10, 0x2AB#10] }
/-- A table in which the guard pattern of lane 0 is also a control code. -/
def guardIsControl : Config := { Config.default with guard := #v[0x354#10, 0x133#10, 0x2CC#10] }

/-- The least index of equal control codes is reported (30_encoding.md R77): the second is no reading of its window. -/
theorem test_illformed_second_equal_control : wellFormed twinControls ⟨0, .data⟩ .control1 = false := by decide
/-- A guard pattern of another lane is no guard (45_tmds_classify.md R174). -/
theorem test_illformed_guard_of_other_lane : wellFormed Config.default ⟨0, .preamble⟩ .guardLane1 = false := by decide
/-- After a DATA symbol the guard arm is skipped (R174). -/
theorem test_illformed_guard_after_data : wellFormed Config.default ⟨1, .data⟩ .guardLane1 = false := by decide
/-- The control arm is tried first (R173). -/
theorem test_illformed_guard_that_is_control : wellFormed guardIsControl ⟨0, .preamble⟩ .guardLane0 = false := by decide
/-- 0x0AB is CTRL[1], no data window (R183 (a)). -/
theorem test_illformed_data_that_is_control : wellFormed Config.default ⟨0, .data⟩ (.data00 0xAB) = false := by decide
/-- 0x133 on lane 1 after a control symbol is the guard, no data window (R183 (b)). -/
theorem test_illformed_data_that_is_guard : wellFormed Config.default ⟨1, .preamble⟩ (.data01 0x33) = false := by decide

/-! ## Encodings: one word of each constructor, written out from its row of 30_encoding.md R62, fields b, a, op -/

/-- `CH.OPEN 0, BUS, 8, 1000, 0, 0` (R90's example): width 8, kind 2, ch 0, op 0x01. -/
theorem test_word_chOpen :
    decode [0b00001000000000100000000000000001#32, 1000, 0, 0, 0, 0, 0] = .instr (.chOpen 0 2 8 1000 0 0) [] ∧
      encode Config.default (.chOpen 0 2 8 1000 0 0) = .command [0x08020001, 0x3E8, 0, 0, 0, 0, 0] := by decide
/-- `CH.PUSH 2, 48, 16, 1` (30_encoding.md R80). -/
theorem test_word_chPush :
    decode [0b00000000000000000000001000000010#32, 0x30, 0, 0x10, 0, 1, 0] = .instr (.chPush 2 48 16 1) [] ∧
      encode Config.default (.chPush 2 48 16 1) = .command [0x00000202, 0x30, 0, 0x10, 0, 1, 0] := by decide
/-- `CH.DROP 3` (40_fifo.md R92). -/
theorem test_word_chDrop :
    decode [0b00000000000000000000001100000011#32] = .instr (.chDrop 3) [] ∧
      encode Config.default (.chDrop 3) = .command [0x00000303] := by decide
/-- `CH.STAT 0` (R93). -/
theorem test_word_chStat :
    decode [0b00000000000000000000000000000100#32] = .instr (.chStat 0) [] ∧
      encode Config.default (.chStat 0) = .command [0x00000004] := by decide
/-- `CH.RD 5, idx` (95_test_vectors.md L2-0), `idx` = 2^32 + 3: the low half crosses first (log entry 1). -/
theorem test_word_chRd :
    decode [0b00000000000000000000010100000101#32, 3, 1] = .instr (.chRd 5 0x100000003) [] ∧
      encode Config.default (.chRd 5 0x100000003) = .command [0x00000505, 3, 1] := by decide
/-- `BIND 4, 7` (L2-0). -/
theorem test_word_bind :
    decode [0b00000000000001110000010000010000#32] = .instr (.bind 4 7) [] ∧
      encode Config.default (.bind 4 7) = .command [0x00070410] := by decide
/-- `UNBIND 3` (41_config.md R112). -/
theorem test_word_unbind :
    decode [0b00000000000000000000001100010001#32] = .instr (.unbind 3) [] ∧
      encode Config.default (.unbind 3) = .command [0x00000311] := by decide
/-- `BIND.GET 5` (R113). -/
theorem test_word_bindGet :
    decode [0b00000000000000000000010100010010#32] = .instr (.bindGet 5) [] ∧
      encode Config.default (.bindGet 5) = .command [0x00000512] := by decide
/-- `LANE.SET 1` (R114). -/
theorem test_word_laneSet :
    decode [0b00000000000000010000000000010011#32] = .instr (.laneSet 1) [] ∧
      encode Config.default (.laneSet 1) = .command [0x00010013] := by decide
/-- `LANE.GET` (R115). -/
theorem test_word_laneGet :
    decode [0b00000000000000000000000000010100#32] = .instr .laneGet [] ∧
      encode Config.default .laneGet = .command [0x00000014] := by decide
/-- `RS.RISE` (42_resampler.md R131). -/
theorem test_word_rsRise :
    decode [0b00000000000000000000000000100000#32] = .instr .rsRise [] ∧
      encode Config.default .rsRise = .command [0x00000020] := by decide
/-- `RS.ANY` (R132). -/
theorem test_word_rsAny :
    decode [0b00000000000000010000000000100000#32] = .instr .rsAny [] ∧
      encode Config.default .rsAny = .command [0x00010020] := by decide
/-- `GMII.REFRESH` (43_framer.md R147). -/
theorem test_word_gmiiRefresh :
    decode [0b00000000000000000000000000100001#32] = .instr .gmiiRefresh [] ∧
      encode Config.default .gmiiRefresh = .command [0x00000021] := by decide
/-- `TMDS.REFRESH` (45_tmds_classify.md R182). -/
theorem test_word_tmdsRefresh :
    decode [0b00000000000000000000000000100010#32] = .instr .tmdsRefresh [] ∧
      encode Config.default .tmdsRefresh = .command [0x00000022] := by decide
/-- `OUT.STAT 2` (40_fifo.md R96). -/
theorem test_word_outStat :
    decode [0b00000000000000000000001000110000#32] = .instr (.outStat 2) [] ∧
      encode Config.default (.outStat 2) = .command [0x00000230] := by decide
/-- `OUT.RD 2, 6` (R97). -/
theorem test_word_outRd :
    decode [0b00000000000000000000001000110001#32, 6, 0] = .instr (.outRd 2 6) [] ∧
      encode Config.default (.outRd 2 6) = .command [0x00000231, 6, 0] := by decide
/-- `OUT.BYTE 0, 2` (R98). -/
theorem test_word_outByte :
    decode [0b00000000000000000000000100110010#32, 0, 0, 2, 0] = .instr (.outByte 0 2) [] ∧
      encode Config.default (.outByte 0 2) = .command [0x00000132, 0, 0, 2, 0] := by decide
/-- The control codes of R74, read in any context; index 9 of the window is the leftmost bit here. -/
theorem test_word_controls :
    decodeWindow Config.default ⟨0, .data⟩ 0b1101010100#10 = .control0 ∧
      decodeWindow Config.default ⟨0, .data⟩ 0b0010101011#10 = .control1 ∧
      decodeWindow Config.default ⟨0, .guard⟩ 0b0101010100#10 = .control2 ∧
      decodeWindow Config.default ⟨2, .preamble⟩ 0b1010101011#10 = .control3 := by decide
/-- The guard patterns of R75, each in its lane after a control or guard symbol. -/
theorem test_word_guards :
    decodeWindow Config.default ⟨0, .preamble⟩ 0b1011001100#10 = .guardLane0 ∧
      decodeWindow Config.default ⟨1, .guard⟩ 0b0100110011#10 = .guardLane1 ∧
      decodeWindow Config.default ⟨2, .preamble⟩ 0b1011001100#10 = .guardLane2 := by decide
/-- The four windows of 0x55 of R183 and R184, told apart by bits 9 and 8; 0x133 is the guard only in lane 1. -/
theorem test_word_datas :
    decodeWindow Config.default ⟨1, .preamble⟩ 0b0010011001#10 = .data00 0x99 ∧
      decodeWindow Config.default ⟨0, .preamble⟩ 0b0100110011#10 = .data01 0x33 ∧
      decodeWindow Config.default ⟨1, .preamble⟩ 0b1001100110#10 = .data10 0x66 ∧
      decodeWindow Config.default ⟨1, .data⟩ 0b1111001100#10 = .data11 0xCC := by decide
/-- Illegal headers of L2-0: a reserved field set, `a` of OUT.BYTE not 1, unassigned opcodes. -/
theorem test_word_illegal :
    decode [0x00010302, 0, 0, 0, 0, 0, 0] = .illegal .reservedField [] ∧ decode [0x00000113] = .illegal .reservedField [] ∧
      decode [0x00020020] = .illegal .reservedField [] ∧ decode [0x00000032, 0, 0, 0, 0] = .illegal .reservedField [] ∧
      decode [0x00000000] = .illegal .unassignedOpcode [] ∧ decode [0x00000006] = .illegal .unassignedOpcode [] := by decide
/-- The words of the opcode table, as the host numbers their bits. -/
theorem test_table_words :
    decodeTableWord 32 0x00010013 = some (.laneSet 1) ∧ decodeTableWord 160 (0x132 + 2 ^ 32 * 5) = some (.outByte 5 0) ∧
      decodeTableWord 10 0x133 = some .guardLane1 ∧ decodeTableWord 16 0x154 = some .control2 ∧
      decodeTableWord 32 0x06 = none := by decide

/-! ## One step each, expected values from the spec -/

/-- The state after an instruction that completes. -/
def after (i : Instr) (s : State) : Option State :=
  match exec i s with
  | .next t => some t
  | _ => none

/-- The answer to a command. -/
def answerOf (i : Instr) (s : State) : Option Response := (after i s).bind fun t => t.response

/-- A header of the vectors. -/
def hdr : Header := ⟨1, 0, 0⟩

/-- A scalar capture. -/
def bits (l : List Sample) : Capture := ⟨.scalar, 1, hdr, l⟩

/-- Captures on channels 0, 1, ... and bindings of slots to channels. -/
def wired (caps : List Capture) (binds : List (Fin NSLOT × Fin NCH)) : State :=
  { State.reset with
    chan := Vector.ofFn fun c => caps[(c : Nat)]?
    bind := Vector.ofFn fun k => (binds.find? fun b => b.1 == k).map fun b => b.2 }

/-- The start state of 95_test_vectors.md L2-7: an 8-bit bus, a scalar, a 4-bit bus. -/
def threeKinds : State := wired [⟨.bus, 8, hdr, []⟩, bits [], ⟨.bus, 4, hdr, []⟩] []

/-- The channel of R91's example after its first push, with a header. -/
def onePushed : State := wired [bits [], bits [⟨5, 5, 1⟩]] []

/-- R90's example: `chan[0]` is an empty 8-bit bus with timescale 1000. -/
theorem test_chOpen : (after (.chOpen 0 2 8 1000 0 0) State.reset).map (fun t => t.chan[0]) =
    some (some ⟨.bus, 8, ⟨1000, 0, 0⟩, []⟩) := by decide
/-- R90: a SCALAR with width 2 is refused. -/
theorem test_chOpen_wide_scalar : answerOf (.chOpen 0 1 2 0 0 0) State.reset = some ⟨.reject, []⟩ := by decide
/-- R91's example: after (5, 5, 1), offset 10 is accepted. -/
theorem test_chPush : (after (.chPush 1 10 5 0) onePushed).map (fun t => t.chan[1]) =
    some (some (bits [⟨5, 5, 1⟩, ⟨10, 5, 0⟩])) := by decide
/-- R91's example: offset 9 is refused, 5 + 5 > 9. -/
theorem test_chPush_overlap : answerOf (.chPush 1 9 1 0) onePushed = some ⟨.reject, []⟩ := by decide
/-- R92: the capture is gone. -/
theorem test_chDrop : (after (.chDrop 1) onePushed).map (fun t => t.chan[1]) = some none := by decide
/-- R93's example: `R0 = 0x080201`. -/
theorem test_chStat : answerOf (.chStat 0) { State.reset with chan := State.reset.chan.set 0 (some ⟨.bus, 8, ⟨1000, 0, 0⟩, []⟩) } =
    some ⟨.ok, [0x080201, 0, 1000, 0, 0]⟩ := by decide
/-- R94's example: `CH.RD 1, 0` answers (5, 5, 1). -/
theorem test_chRd : answerOf (.chRd 1 0) onePushed = some ⟨.ok, [5, 5, 1]⟩ := by decide
/-- CF-1: slot 0 takes an 8-bit bus. -/
theorem test_bind : (after (.bind 0 0) threeKinds).map (fun t => t.bind[0]) = some (some 0) := by decide
/-- CF-2, CF-3: slot 1 needs a scalar, slot 0 needs width 8. -/
theorem test_bind_refused : answerOf (.bind 1 0) threeKinds = some ⟨.reject, []⟩ ∧
    answerOf (.bind 0 2) threeKinds = some ⟨.reject, []⟩ := by decide
/-- CF-5b: the slot is unbound. -/
theorem test_unbind : (after (.unbind 1) (wired [bits []] [(1, 0)])).map (fun t => t.bind[1]) = some none := by decide
/-- R113's example: after `BIND 5, 1` the word is 0x101. -/
theorem test_bindGet : answerOf (.bindGet 5) (wired [] [(5, 1)]) = some ⟨.ok, [0x101]⟩ := by decide
/-- CF-7: lane 2 is stored. -/
theorem test_laneSet : (after (.laneSet 2) State.reset).map (fun t => t.lane) = some 2 := by decide
/-- CF-8: 3 is refused and the register keeps 2. -/
theorem test_laneSet_refused : (after (.laneSet 3) (State.reset.putLane 2)).map (fun t => (t.lane, t.response)) =
    some (2, some ⟨.reject, []⟩) := by decide
/-- CF-9: LANE.GET answers 2. -/
theorem test_laneGet : answerOf .laneGet (State.reset.putLane 2) = some ⟨.ok, [2]⟩ := by decide

/-- The inputs of R131's example on channels 0 and 1, bound to slots 6 and 7. -/
def rsInputs : State :=
  wired [bits [⟨3, 4, 1⟩, ⟨7, 10, 0⟩, ⟨17, 100, 1⟩],
    bits [⟨0, 5, 0⟩, ⟨5, 5, 1⟩, ⟨10, 5, 0⟩, ⟨15, 5, 1⟩, ⟨20, 5, 0⟩, ⟨25, 5, 1⟩]] [(6, 0), (7, 1)]

/-- R131's example. -/
theorem test_rsRise : (after .rsRise rsInputs).map (fun t => t.outRs) =
    some (some (bits [⟨5, 10, 1⟩, ⟨15, 10, 0⟩, ⟨25, 1, 1⟩])) := by decide
/-- R132's example. -/
theorem test_rsAny : (after .rsAny rsInputs).map (fun t => t.outRs) =
    some (some (bits [⟨5, 5, 1⟩, ⟨10, 5, 0⟩, ⟨15, 5, 0⟩, ⟨20, 5, 1⟩, ⟨25, 1, 1⟩])) := by decide

/-- A clock that starts low and toggles every `half` ticks, `n` samples (30_encoding.md R81, CH.CLOCK). -/
def clock (half n : Nat) : List Sample := (List.range n).map fun (j : Nat) => ⟨half * j, half, BitVec.ofNat 32 (j % 2)⟩

/-- Samples every `half` ticks from the first rising edge on, with these values. -/
def train (half : Nat) (vs : List Nat) : List Sample :=
  (List.range vs.length).map fun (j : Nat) => ⟨half * (j + 1), half, BitVec.ofNat 32 (vs.getD j 0)⟩

/-- Raw captures whose rising-edge streams are those of 95_test_vectors.md L1-5: rising edges at 4, 12, ..., 68. -/
def gmiiInputs : State :=
  wired [⟨.bus, 8, hdr, train 8 [0x55, 0x55, 0xD5, 0, 0, 1, 0x80, 0xFF]⟩, bits (clock 4 19),
    bits (⟨0, 8, 0⟩ :: train 8 [1, 1, 1, 0, 0, 1, 1, 0]), bits [⟨0, 72, 1⟩]] [(0, 0), (1, 1), (2, 2), (3, 3)]

/-- The data of L1-5 with its first sample, the enable's first octet being no frame. -/
def gmiiFull : State :=
  gmiiInputs.putChan 0 (some ⟨.bus, 8, hdr, ⟨0, 8, 0⟩ :: train 8 [0x55, 0x55, 0xD5, 0, 0, 1, 0x80, 0xFF]⟩)

/-- L1-5: two frames, (12, 36, 55 55 D5) and (52, 68, 01 80). -/
theorem test_gmiiRefresh : (after .gmiiRefresh gmiiFull).map (fun t => t.outGmii) =
    some (some ⟨hdr, [⟨12, 36, [0x55, 0x55, 0xD5]⟩, ⟨52, 68, [0x01, 0x80]⟩]⟩) := by decide
/-- R148: streams of unequal length make the output absent, and the answer is `OK`. -/
theorem test_gmiiRefresh_unequal : (after .gmiiRefresh gmiiInputs).map (fun t => (t.outGmii, t.response)) =
    some (none, some ⟨.ok, []⟩) := by decide

/-- The bits of windows, earliest first. -/
def windowBits (ws : List Window) : List Nat := ws.flatMap fun w => (List.range 10).map fun k => (w.getLsbD k).toNat

/-- Captures whose any-edge stream is the bits of `ws`, an edge every 5 ticks from tick 5 on, on slots 4 and 5. -/
def tmdsInputs (ws : List Window) : State :=
  (wired [bits (train 5 (windowBits ws)), bits (clock 5 (10 * ws.length + 1))] [(4, 0), (5, 1)]).putLane 1

/-- The windows of R184's scenario shortened to two control codes, one guard band and the data window 0x3CC. -/
def scenario : List Window := [0x154, 0x154, 0x133, 0x3CC]

/-- R184 shortened: CONTROL(2) twice, GUARD, DATA(0x55); each spans ten edges, the last ends one tick after the last edge. -/
theorem test_tmdsRefresh : (after .tmdsRefresh (tmdsInputs scenario)).map (fun t => t.outTmds) =
    some (some ⟨hdr, [⟨5, 50, .control 2⟩, ⟨55, 50, .control 2⟩, ⟨105, 50, .guard⟩, ⟨155, 46, .data 0x55⟩]⟩) := by
  decide +kernel
/-- R194: fewer than 20 resampled bits make the output absent. -/
theorem test_tmdsRefresh_short : (after .tmdsRefresh (tmdsInputs [0x154])).map (fun t => (t.outTmds, t.response)) =
    some (none, some ⟨.ok, []⟩) := by decide

/-- R96's example: after reset `OUT.STAT 2` answers five zero words. -/
theorem test_outStat : answerOf (.outStat 2) State.reset = some ⟨.ok, [0, 0, 0, 0, 0]⟩ := by decide
/-- R96: a present framer output reports PROTOCOL, width 0. -/
theorem test_outStat_present : answerOf (.outStat 1) { State.reset with outGmii := some ⟨hdr, []⟩ } =
    some ⟨.ok, [0x401, 0, 1, 0, 0]⟩ := by decide
/-- R97's example: (220, 19, 0x255) is DATA(0x55). -/
theorem test_outRd : answerOf (.outRd 2 0) { State.reset with outTmds := some ⟨hdr, [⟨220, 19, .data 0x55⟩]⟩ } =
    some ⟨.ok, [220, 19, 0x255]⟩ := by decide
/-- R98's example: octet 2 of frame 0 is 0xD5. -/
theorem test_outByte : answerOf (.outByte 0 2) { State.reset with outGmii := some ⟨hdr, [⟨12, 36, [0x55, 0x55, 0xD5]⟩]⟩ } =
    some ⟨.ok, [0xD5]⟩ := by decide

/-- An open classification with one window to go. -/
def openAt (w : Window) (lane : Fin 3) (last : LastSymbolType) : State :=
  State.reset.putWalk (some ⟨windowStream w, hdr, lane, 0, last, []⟩)

/-- The state after a step that answers one. -/
def stepped (s : State) : Option State :=
  match step s with
  | .next t => some t
  | _ => none

/-- The symbol a step emits, the history it leaves and the cursor after it. -/
def emitted (s : State) : Option (List Symbol × LastSymbolType × Nat) :=
  match step s with
  | .next t => t.walk.map fun u => (u.symbols.map fun x => x.sym, u.last, u.cursor)
  | _ => none

/-- R173: a control code is recognised in any context; 0x154 gives CONTROL(2). -/
theorem test_controls :
    emitted (openAt 0x354 0 .data) = some ([.control 0], .preamble, 10) ∧
      emitted (openAt 0x0AB 1 .guard) = some ([.control 1], .preamble, 10) ∧
      emitted (openAt 0x154 2 .preamble) = some ([.control 2], .preamble, 10) ∧
      emitted (openAt 0x2AB 0 .data) = some ([.control 3], .preamble, 10) := by decide
/-- R174's example and the other lanes. -/
theorem test_guards :
    emitted (openAt 0x2CC 0 .guard) = some ([.guard], .guard, 10) ∧
      emitted (openAt 0x133 1 .preamble) = some ([.guard], .guard, 10) ∧
      emitted (openAt 0x2CC 2 .preamble) = some ([.guard], .guard, 10) := by decide
/-- R183 (b), (c): after data, and in another lane, the pattern 0x133 is DATA(0x55). -/
theorem test_guards_shadowed :
    emitted (openAt 0x133 1 .data) = some ([.data 0x55], .data, 10) ∧
      emitted (openAt 0x133 0 .preamble) = some ([.data 0x55], .data, 10) := by decide
/-- R176: 0x099 gives 0x55, 0x100 gives 0x00, 0x200 gives 0xFF, 0x3CC gives 0x55. -/
theorem test_datas :
    emitted (openAt 0x099 0 .data) = some ([.data 0x55], .data, 10) ∧
      emitted (openAt 0x100 0 .data) = some ([.data 0x00], .data, 10) ∧
      emitted (openAt 0x200 0 .data) = some ([.data 0xFF], .data, 10) ∧
      emitted (openAt 0x3CC 0 .data) = some ([.data 0x55], .data, 10) := by decide
/-- R176's corner cases. -/
theorem test_decodeData : decodeData 0x000 = 0xFE ∧ decodeData 0x300 = 0x01 ∧ decodeData 0x3FF = 0x00 ∧
    decodeData 0x0FF = 0xFF ∧ decodeData 0x266 = 0x55 := by decide
/-- R73: a window that differs from a pattern in one bit is no match. -/
theorem test_near_miss : decodeWindow Config.default ⟨0, .preamble⟩ 0x155 = .data01 0x55 ∧
    decodeWindow Config.default ⟨1, .preamble⟩ 0x132 = .data01 0x32 := by decide
/-- A table word placed after reset is what the next step runs. -/
theorem test_withFetchWord :
    (match step (State.reset.withFetchWord 32 0x00010013) with
      | .next t => some (t.lane, t.portIn, t.response)
      | _ => none) = some (1, [0, 0, 0, 0, 0, 0], some ⟨.ok, []⟩) ∧
      emitted (State.reset.withFetchWord 10 0x133) = some ([.guard], .guard, 10) := by decide

/-! ## The hypotheses of the statements are met: one witness for each statement that has hypotheses -/

/-- A clock with a rising edge at 5 and its data, bound to slots 6 and 7: `rsInputs`; without the clock's binding. -/
def rsHalf : State := rsInputs.putBind 7 none

/-- A classification of ten samples in lane 1 whose window is `w`. -/
def walkAt (w : Window) (lane : Fin 3) (last : LastSymbolType) : Walk := ⟨windowStream w, hdr, lane, 0, last, []⟩

theorem witness_EncodedCommandsDecodeToThemselves : encode Config.default (.laneSet 2) = .command [0x00020013] := by decide
theorem witness_DecodedCommandsReencode : decode [0x00020013, 7] = .instr (.laneSet 2) [7] := by decide
theorem witness_WellFormedWindowsDecodeToThemselves :
    (encode Config.default .control3 = .window 0x2AB ∧ wellFormed Config.default ⟨0, .data⟩ .control3 = true) ∧
      (encode Config.default .guardLane1 = .window 0x133 ∧ wellFormed Config.default ⟨1, .guard⟩ .guardLane1 = true) ∧
      (encode Config.default (.data01 0x33) = .window 0x133 ∧ wellFormed Config.default ⟨1, .data⟩ (.data01 0x33) = true) := by
  decide
theorem witness_StepRunsTheDecodedInstruction :
    ((State.reset.putPort [0x14]).walk = none ∧ decode (State.reset.putPort [0x14]).portIn = .instr .laneGet []) ∧
      ((openAt 0x133 1 .guard).walk = some (walkAt 0x133 1 .guard) ∧
        (walkAt 0x133 1 .guard).cursor + 10 ≤ (walkAt 0x133 1 .guard).stream.length) := by decide
/-- A reserved field set in an assigned opcode, with its operand words, and the first and last opcode of no row. -/
theorem witness_IllegalHeadersAreRejected :
    ((State.reset.putPort [0x00010205, 1, 0, 9]).walk = none ∧
      (State.reset.putPort [0x00010205, 1, 0, 9]).portIn = 0x00010205#32 :: ([1, 0] ++ [9]) ∧
      [(1 : Beat), 0].length = 2 * (formatOf ((0x00010205#32).extractLsb' 0 8)).operandWords ∧
      ∀ row ∈ opcodeRows, 0x00010205#32 &&& row.1 ≠ row.2) ∧
      (∀ row ∈ opcodeRows, row.2.extractLsb' 0 8 ≠ 0x00#8) ∧ (∀ row ∈ opcodeRows, row.2.extractLsb' 0 8 ≠ 0xFF#8) :=
  ⟨⟨rfl, rfl, by decide, by simp [opcodeRows]⟩, by simp [opcodeRows], by simp [opcodeRows]⟩
/-- `CH.RD` with its header alone, and with all but one of its beats. -/
theorem witness_IncompleteCommandsWait :
    ((State.reset.putPort [0x00000005]).walk = none ∧ decode (State.reset.putPort [0x00000005]).portIn = .incomplete) ∧
      decode [0x00000005, 1] = .incomplete := by decide
theorem witness_NoClassificationStaysOpen : State.reset.walk = none ∧ step State.reset = .next State.reset := ⟨rfl, rfl⟩
/-- The widest bus, a scalar, and one descriptor past each bound. -/
theorem witness_OpenInstallsAnEmptyCapture :
    ((2#8 = 2 ∧ Kind.bus = .bus ∧ 1 ≤ (32#8).toNat ∧ (32#8).toNat ≤ 32)) ∧ (1#8 = 1 ∧ Kind.scalar = .scalar ∧ 1#8 = 1) ∧
      8 ≤ (8#8).toNat ∧ ¬((2#8 = 1 ∧ 33#8 = 1) ∨ (2#8 = 2 ∧ 1 ≤ (33#8).toNat ∧ (33#8).toNat ≤ 32)) := by decide
/-- The last tick, right after a sample that ends there; then each test failing at its bound. -/
theorem witness_PushAppendsOneSample :
    ((wired [bits [⟨5, 2 ^ 63 - 7, 1⟩]] []).chan[(0 : Fin NCH)] = some (bits [⟨5, 2 ^ 63 - 7, 1⟩]) ∧
      (2 ^ 63 - 2 : Int) + (0 : Nat) ≤ 2 ^ 63 - 2 ∧ (1#32).toNat < 2 ^ (bits []).width ∧
      (5 : Int) + (2 ^ 63 - 7 : Nat) ≤ 2 ^ 63 - 2) ∧
      8 ≤ (8#8).toNat ∧ State.reset.chan[(7 : Fin NCH)] = none ∧
      onePushed.chan[(1 : Fin NCH)] = some (bits [⟨5, 5, 1⟩]) ∧ (some 1 : Option Nat) = some (bits [⟨5, 5, 1⟩]).samples.length ∧
      (BitVec.ofInt 64 (-1)).toInt < 0 ∧ (2 ^ 63 - 2 : Int) < (BitVec.ofNat 64 (2 ^ 63 - 1)).toInt + (0#64).toInt ∧
      2 ^ 1 ≤ (2#64).toNat ∧ (9#64).toInt < (5 : Int) + (5 : Nat) := by decide
theorem witness_DropEmptiesTheChannel : 8 ≤ (8#8).toNat := by decide
theorem witness_StatReportsTheCapture :
    State.reset.chan[(0 : Fin NCH)] = none ∧ (8 < 256 ∧ threeKinds.chan[(0 : Fin NCH)] = some ⟨.bus, 8, hdr, []⟩) ∧
      8 ≤ (8#8).toNat := by decide
theorem witness_ReadAnswersTheSample :
    (onePushed.chan[(1 : Fin NCH)] = some (bits [⟨5, 5, 1⟩]) ∧ (bits [⟨5, 5, 1⟩]).samples[(0#64).toNat]? = some ⟨5, 5, 1⟩) ∧
      8 ≤ (255#8).toNat ∧ onePushed.chan[(2 : Fin NCH)] = none ∧ (bits [⟨5, 5, 1⟩]).samples.length ≤ (1#64).toNat := by decide

/-- A state with one entry in each output. -/
def threeOutputs : State :=
  { State.reset with
    outRs := some (bits [⟨5, 1, 1⟩])
    outGmii := some ⟨hdr, [⟨12, 36, [0x55, 0xD5]⟩]⟩
    outTmds := some ⟨hdr, [⟨220, 19, .data 0x55⟩]⟩ }

theorem witness_OutStatReportsTheOutput :
    (State.reset.outRs = none ∧ State.reset.outGmii = none ∧ State.reset.outTmds = none) ∧
      (1 < 256 ∧ threeOutputs.outRs = some ⟨.scalar, 1, hdr, [⟨5, 1, 1⟩]⟩) ∧
      threeOutputs.outGmii = some ⟨hdr, [⟨12, 36, [0x55, 0xD5]⟩]⟩ ∧
      threeOutputs.outTmds = some ⟨hdr, [⟨220, 19, .data 0x55⟩]⟩ ∧ 3 ≤ (3#8).toNat := by decide
/-- An entry of each output; a unit past the last; an index at the length, and an absent output. -/
theorem witness_OutReadAnswersTheEntry :
    (threeOutputs.outRs = some (bits [⟨5, 1, 1⟩]) ∧ (bits [⟨5, 1, 1⟩]).samples[(0#64).toNat]? = some ⟨5, 1, 1⟩) ∧
      ((threeOutputs.outGmii.bind fun o => o.frames[(0#64).toNat]?) = some ⟨12, 36, [0x55, 0xD5]⟩) ∧
      ((threeOutputs.outTmds.bind fun o => o.symbols[(0#64).toNat]?) = some ⟨220, 19, .data 0x55⟩) ∧
      3 ≤ (3#8).toNat ∧ (bits [⟨5, 1, 1⟩]).samples.length ≤ (1#64).toNat ∧ State.reset.outTmds = none := by decide
theorem witness_OutByteAnswersTheOctet :
    ((threeOutputs.outGmii.bind fun o => o.frames[(0#64).toNat]?) = some ⟨12, 36, [0x55, 0xD5]⟩ ∧
      ([0x55, 0xD5] : List Octet)[(1#64).toNat]? = some 0xD5) ∧
      ([0x55, 0xD5] : List Octet).length ≤ (2#64).toNat ∧ State.reset.outGmii = none := by decide
theorem witness_PushedSamplesStay :
    exec .laneGet onePushed = .next (onePushed.answered .ok [0]) ∧ onePushed.capRead 1 0 = some ⟨5, 5, 1⟩ := ⟨rfl, by decide⟩
/-- A slot and a channel that fit; numbers past the last; a capture that does not fit, and an absent channel. -/
theorem witness_BindValidatesAndBinds :
    (threeKinds.chan[(0 : Fin NCH)] = some ⟨.bus, 8, hdr, []⟩ ∧ typeOK 0 ⟨.bus, 8, hdr, []⟩ = true) ∧
      (8 ≤ (8#8).toNat) ∧ typeOK 1 ⟨.bus, 8, hdr, []⟩ = false ∧ threeKinds.chan[(3 : Fin NCH)] = none := by decide
theorem witness_UnbindDisconnectsTheSlot : 8 ≤ (8#8).toNat := by decide
theorem witness_BindGetReadsTheBinding :
    State.reset.bind[(0 : Fin NSLOT)] = none ∧ rsInputs.bind[(7 : Fin NSLOT)] = some 1 ∧ 8 ≤ (8#8).toNat := by decide
theorem witness_LaneIsSetAndRead : 2 < (3#16).toNat := by decide

/-- The two captures of `rsInputs`. -/
def rsData : Capture := bits [⟨3, 4, 1⟩, ⟨7, 10, 0⟩, ⟨17, 100, 1⟩]
/-- The clock of `rsInputs`. -/
def rsClock : Capture := bits [⟨0, 5, 0⟩, ⟨5, 5, 1⟩, ⟨10, 5, 0⟩, ⟨15, 5, 1⟩, ⟨20, 5, 0⟩, ⟨25, 5, 1⟩]

/-- Inputs that pass; an unbound slot; slots that are all bound and do not pass (a data capture that is no 8-bit bus). -/
theorem witness_GatherAcceptsExactlySoundInputs :
    rsInputs.Inputs [6, 7] [rsData, rsClock] ∧ (∃ k ∈ [(6 : Fin NSLOT), 7], rsHalf.slotCapture k = none) ∧
      ((∀ k ∈ [(0 : Fin NSLOT)], (rsInputs.putBind 0 (some 0)).slotCapture k ≠ none) ∧
        ∀ caps, ¬(rsInputs.putBind 0 (some 0)).Inputs [0] caps) := by
  refine ⟨by unfold State.Inputs; decide, by decide, by decide, ?_⟩
  rintro caps ⟨h1, h2, _⟩
  have h3 : (rsInputs.putBind 0 (some 0)).slotCapture 0 = some rsData := by decide
  match caps with
  | [] => cases h1
  | [cap] =>
    rw [List.map_cons, h3, List.map_cons] at h1
    cases h1
    exact absurd (h2 (0, rsData) (by simp)) (by decide)
  | _ :: _ :: _ => cases h1
theorem witness_ResamplerRefreshInstallsItsStream :
    rsInputs.Inputs [6, 7] [rsData, rsClock] ∧ ∀ d c, ¬rsHalf.Inputs [6, 7] [d, c] := by
  refine ⟨by unfold State.Inputs; decide, ?_⟩
  rintro d c ⟨h, _⟩
  have h7 : rsHalf.slotCapture 7 = none := by decide
  simp [h7] at h
theorem witness_ResampleTakesTheValueInEffect : SortedOffsets rsData.samples ∧ SortedOffsets rsClock.samples := by
  unfold SortedOffsets
  decide
theorem witness_ResampleLengthIsBounded : SortedOffsets rsData.samples ∧ SortedOffsets rsClock.samples := by
  unfold SortedOffsets
  decide
/-- Two samples that follow one another, the last sample, and the latest clock offset that a push allows. -/
theorem witness_ResampledSamplesAbut :
    SortedOffsets rsClock.samples ∧ (resample .any rsData.samples rsClock.samples)[3]? = some ⟨20, 5, 1⟩ ∧
      (resample .any rsData.samples rsClock.samples)[4]? = some ⟨25, 1, 1⟩ ∧
      (resample .any rsData.samples rsClock.samples).getLast? = some ⟨25, 1, 1⟩ ∧
      SortedOffsets [⟨0, 1, 0⟩, ⟨2 ^ 63 - 2, 0, 1⟩] ∧ (∀ y ∈ [(⟨0, 1, 0⟩ : Sample), ⟨2 ^ 63 - 2, 0, 1⟩], y.offset ≤ 2 ^ 63 - 2) := by
  unfold SortedOffsets
  decide
/-- FR-5 of 95_test_vectors.md: three samples, two frames, the greatest number there can be. -/
theorem witness_FramesAreBoundedAndDisjoint :
    let rd : List Sample := [⟨10, 10, 0x11⟩, ⟨20, 10, 0x22⟩, ⟨30, 1, 0x33⟩]
    let re : List Sample := [⟨10, 10, 1⟩, ⟨20, 10, 0⟩, ⟨30, 1, 1⟩]
    rd.length = re.length ∧ ordered rd = true ∧ (frames rd re)[0]? = some ⟨10, 20, [0x11]⟩ ∧
      (frames rd re)[1]? = some ⟨30, 31, [0x33]⟩ := by decide

/-- The captures of `gmiiFull`. -/
def gmiiData : Capture := ⟨.bus, 8, hdr, ⟨0, 8, 0⟩ :: train 8 [0x55, 0x55, 0xD5, 0, 0, 1, 0x80, 0xFF]⟩
/-- The data of `gmiiInputs`, one edge late. -/
def gmiiLate : Capture := ⟨.bus, 8, hdr, train 8 [0x55, 0x55, 0xD5, 0, 0, 1, 0x80, 0xFF]⟩
/-- The enable. -/
def gmiiEnable : Capture := bits (⟨0, 8, 0⟩ :: train 8 [1, 1, 1, 0, 0, 1, 1, 0])

/-- Equal lengths; unequal lengths; nothing bound. -/
theorem witness_GmiiRefreshInstallsTheFrames :
    (gmiiFull.Inputs [0, 1, 2, 3] [gmiiData, bits (clock 4 19), gmiiEnable, bits [⟨0, 72, 1⟩]] ∧
      (resample .rising gmiiData.samples (clock 4 19)).length = (resample .rising gmiiEnable.samples (clock 4 19)).length ∧
      (resample .rising gmiiEnable.samples (clock 4 19)).length = (resample .rising [⟨0, 72, 1⟩] (clock 4 19)).length) ∧
      (gmiiInputs.Inputs [0, 1, 2, 3] [gmiiLate, bits (clock 4 19), gmiiEnable, bits [⟨0, 72, 1⟩]] ∧
        ¬(resample .rising gmiiLate.samples (clock 4 19)).length = (resample .rising gmiiEnable.samples (clock 4 19)).length) ∧
      ∀ a b c d, ¬State.reset.Inputs [0, 1, 2, 3] [a, b, c, d] := by
  refine ⟨by unfold State.Inputs; decide, by unfold State.Inputs; decide, ?_⟩
  rintro a b c d ⟨h, _⟩
  have h0 : State.reset.slotCapture 0 = none := by decide
  simp [h0] at h
/-- The error capture of `gmiiFull` and another with the same offsets and other values and durations. -/
theorem witness_GmiiIgnoresErrorValues :
    gmiiFull.bind[(3 : Fin NSLOT)] = some 3 ∧ (∀ k : Fin NSLOT, k < 3 → gmiiFull.bind[k] ≠ some 3) ∧
      gmiiFull.chan[(3 : Fin NCH)] = some (bits [⟨0, 72, 1⟩]) ∧
      (bits [⟨0, 5, 0⟩]).samples.map (fun x => x.offset) = (bits [⟨0, 72, 1⟩]).samples.map (fun x => x.offset) := by decide
/-- The last complete window of a stream of ten samples, and its last bit. -/
theorem witness_CountersCountCompleteWindows :
    0 + 10 ≤ (windowStream 0x354).length ∧ 9 < 10 ∧ (windowStream 0x354)[0 + 9]? = some ⟨9, 1, 1⟩ := by decide
/-- A stream without a code, and one with a code at phase 0. -/
theorem witness_SearchFindsTheFirstBestPhase :
    (∀ p j, matchCount Config.default [] p j = 0) ∧ (∃ p j, matchCount Config.default (windowStream 0x154) p j ≠ 0) :=
  ⟨by decide, 0, 2, by decide⟩
/-- Other ticks, another guard table and another depth, the same bits and codes. -/
theorem witness_SearchDependsOnBitsAlone :
    Config.default.ctrl = guardIsControl.ctrl ∧
      (windowStream 0x154).map Sample.bit = ((windowStream 0x154).map fun x => { x with offset := 3 * x.offset }).map Sample.bit := by
  decide
theorem witness_DecodeDataBitByBit : 0 < 8 ∧ 7 < 8 := by decide
theorem witness_DecodeDataInvertsEncodeData : decodeData 0x099 = 0x55 := by decide
/-- A window at the end of its stream, and one with a sample after it. -/
theorem witness_EmitAppendsTheSymbolWithItsSpan :
    (SortedOffsets (windowStream 0x154) ∧ (windowStream 0x154)[0]? = some ⟨0, 1, 0⟩ ∧
      (windowStream 0x154)[0 + 9]? = some ⟨9, 1, 0⟩ ∧ (windowStream 0x154).length = 0 + 10) ∧
      SortedOffsets (windowStream 0x154 ++ [⟨10, 1, 1⟩]) ∧ (windowStream 0x154 ++ [⟨10, 1, 1⟩])[0 + 10]? = some ⟨10, 1, 1⟩ := by
  unfold SortedOffsets
  decide
theorem witness_ControlArmEmitsControl :
    (openAt 0x2AB 0 .data).walk = some (walkAt 0x2AB 0 .data) ∧ 0 + 10 ≤ (windowStream 0x2AB).length ∧
      windowAt (windowStream 0x2AB) 0 = Config.default.ctrl[(3 : Fin 4)] ∧
      ∀ j', j' < (3 : Fin 4) → windowAt (windowStream 0x2AB) 0 ≠ Config.default.ctrl[j'] := by decide
/-- The guard of lane 1 after a control symbol, after a guard, after data; and open classifications in the other lanes. -/
theorem witness_GuardArmEmitsGuard :
    (openAt 0x133 1 .preamble).walk = some (walkAt 0x133 1 .preamble) ∧ 0 + 10 ≤ (windowStream 0x133).length ∧
      (∀ j : Fin 4, windowAt (windowStream 0x133) 0 ≠ Config.default.ctrl[j]) ∧
      windowAt (windowStream 0x133) 0 = Config.default.guard[(1 : Fin 3)] ∧
      (openAt 0x133 1 .guard).walk = some (walkAt 0x133 1 .guard) ∧ (openAt 0x133 1 .data).walk = some (walkAt 0x133 1 .data) ∧
      (walkAt 0x2CC 0 .guard).lane = 0 ∧ (walkAt 0x2CC 2 .guard).lane = 2 := by decide
theorem witness_DataArmEmitsTheValue :
    (openAt 0x3CC 1 .guard).walk = some (walkAt 0x3CC 1 .guard) ∧ 0 + 10 ≤ (windowStream 0x3CC).length ∧
      (∀ j : Fin 4, windowAt (windowStream 0x3CC) 0 ≠ Config.default.ctrl[j]) ∧
      windowAt (windowStream 0x3CC) 0 ≠ Config.default.guard[(1 : Fin 3)] := by decide
theorem witness_GuardClassesOutOfContextEmitData :
    (openAt 0x133 0 .preamble).walk = some (walkAt 0x133 0 .preamble) ∧ 0 + 10 ≤ (windowStream 0x133).length ∧
      (walkAt 0x133 0 .preamble).lane ≠ 1 ∧ (walkAt 0x133 0 .preamble).lane ≠ 2 ∧ (walkAt 0x133 0 .data).last = .data := by decide
/-- No classification, and one with nine samples left. -/
theorem witness_WindowClassesNeedAWindow :
    isCommand .control0 = false ∧ State.reset.walk = none ∧
      (walkAt 0x133 0 .data).stream.length < { walkAt 0x133 0 .data with cursor := 1 }.cursor + 10 := by decide
/-- The second of two windows, which the stream just holds. -/
theorem witness_ClassifyEmitsOneSymbolPerWindow :
    let st := windowStream 0x154 ++ windowStream 0x133
    0 + 10 * 1 + 10 ≤ st.length ∧ st[0 + 10 * 1]? = some ⟨0, 1, 1⟩ := by decide

/-- Twenty ordered samples: a control code and a guard band of lane 1. -/
def twoWindows : List Sample :=
  windowStream 0x154 ++ (windowStream 0x133).map fun x => { x with offset := x.offset + 10 }

theorem witness_SymbolsAbut :
    SortedOffsets twoWindows ∧
      (Walk.finish Config.default ⟨twoWindows, hdr, 1, 0, .data, []⟩).symbols[0]? = some ⟨0, 10, .control 2⟩ ∧
      (Walk.finish Config.default ⟨twoWindows, hdr, 1, 0, .data, []⟩).symbols[0 + 1]? = some ⟨10, 10, .guard⟩ ∧
      (Walk.finish Config.default ⟨twoWindows, hdr, 1, 0, .data, []⟩).symbols.head? = some ⟨0, 10, .control 2⟩ ∧
      twoWindows[0]? = some ⟨0, 1, 0⟩ := by
  unfold SortedOffsets
  decide +kernel
theorem witness_GuardNeverFollowsData :
    (Walk.finish Config.default ⟨twoWindows, hdr, 1, 0, .data, []⟩).symbols.head? = some ⟨0, 10, .control 2⟩ ∧
      (Walk.finish Config.default ⟨twoWindows, hdr, 1, 0, .data, []⟩).symbols[0 + 1]? = some ⟨10, 10, .guard⟩ := by decide +kernel

/-- Twenty resampled bits, the least that a refresh accepts. -/
def tmdsLeast : State := tmdsInputs [0x154, 0x133]
/-- Nineteen resampled bits: the same data with one clock sample less. -/
def tmdsShort : State := tmdsLeast.putChan 1 (some (bits (clock 5 20)))

theorem witness_TmdsRefreshInstallsTheSymbols :
    (tmdsLeast.Inputs [4, 5] [bits (train 5 (windowBits [0x154, 0x133])), bits (clock 5 21)] ∧
      (resample .any (train 5 (windowBits [0x154, 0x133])) (clock 5 21)).length = 20) ∧
      (tmdsShort.Inputs [4, 5] [bits (train 5 (windowBits [0x154, 0x133])), bits (clock 5 20)] ∧
        (resample .any (train 5 (windowBits [0x154, 0x133])) (clock 5 20)).length = 19) ∧
      ∀ a b, ¬State.reset.Inputs [4, 5] [a, b] := by
  refine ⟨by unfold State.Inputs; decide +kernel, by unfold State.Inputs; decide +kernel, ?_⟩
  rintro a b ⟨h, _⟩
  have h4 : State.reset.slotCapture 4 = none := by decide
  simp [h4] at h
theorem witness_TmdsRefreshEqualsItsWindowSteps :
    tmdsLeast.walk = none ∧ tmdsLeast.startWalk.toOption.map (fun u => (u.stream.length, u.cursor)) = some (20, 0) :=
  ⟨rfl, by decide +kernel⟩
/-- R60: the refused command's status is 1, the accepted one's 0. -/
theorem test_status_codes :
    (answerOf (.laneSet 3) State.reset).map (fun r => r.status.code) = some 1 ∧
      (answerOf (.laneSet 2) State.reset).map (fun r => r.status.code) = some 0 := by decide
theorem witness_RejectChangesNothing : isCommand (.laneSet 3) = true := by decide
theorem witness_WriteRightsAreDivided :
    exec .rsRise State.reset = .next (State.reset.answered .ok []) ∧ isRefresh .rsRise = true ∧ isRefresh .laneGet = false ∧
      isCommand .control0 = false := ⟨rfl, by decide⟩
theorem witness_RefreshDependsOnItsInputsAlone :
    isRefresh .tmdsRefresh = true ∧ State.reset.cfg = threeOutputs.cfg ∧ State.reset.chan = threeOutputs.chan ∧
      State.reset.bind = threeOutputs.bind ∧ State.reset.lane = threeOutputs.lane := by decide
/-- A command waits on the port and a capture is stored. -/
theorem witness_StepKeepsTheStorageSound :
    (onePushed.putPort [0x00000303]).StorageSound ∧
      (stepped (onePushed.putPort [0x00000303])).map (fun t => t.response) = some (some ⟨.ok, []⟩) := by
  unfold State.StorageSound
  decide
/-- Sound inputs, a sound output and the refresh that replaces it. -/
theorem witness_StepKeepsTheResamplerOutputSound :
    (rsInputs.putPort [0x00000020]).StorageSound ∧ (rsInputs.putPort [0x00000020]).RsSound ∧
      (stepped (rsInputs.putPort [0x00000020])).map (fun t => t.outRs.isSome) = some true := by
  refine ⟨by unfold State.StorageSound; decide, ?_, by decide⟩
  intro cap h
  cases h
theorem witness_StepKeepsTheFramesSound :
    (gmiiFull.putPort [0x00000021]).StorageSound ∧ (gmiiFull.putPort [0x00000021]).GmiiSound ∧
      (stepped (gmiiFull.putPort [0x00000021])).map (fun t => t.outGmii.isSome) = some true := by
  refine ⟨by unfold State.StorageSound; decide +kernel, ?_, by decide +kernel⟩
  intro o h
  cases h
theorem witness_StepKeepsTheSymbolsSound :
    (tmdsLeast.putPort [0x00000022]).StorageSound ∧ (tmdsLeast.putPort [0x00000022]).TmdsSound ∧
      (stepped (tmdsLeast.putPort [0x00000022])).map (fun t => t.outTmds.isSome) = some true := by
  refine ⟨by unfold State.StorageSound; decide +kernel, ⟨?_, ?_⟩, by decide +kernel⟩
  · intro o h
    cases h
  · intro u h
    cases h

end Sys2Proof.Tests
end

section
/-! What an instruction and a step can do to the state, said once; every invariant is derived from it. -/

namespace Sys2Proof.Machine

/-- Everything an instruction that answers a next state can have done: each constructor is one kind of state change, with
the conditions under which the block makes it. `exec_effect` ties it to the machine. -/
inductive Effect (s : State) : Instr → State → Prop where
  /-- A read or a refusal: an answer, and no other change (30_encoding.md R66). -/
  | answered (i : Instr) (r : Response) : Effect s i (s.answer r)
  /-- A new, empty capture (40_fifo.md R90). -/
  | opened (ch kind width : Octet) (ts st ss : PortWord) (c : Fin NCH) (k : Kind) (w : Nat) (h : Header)
      (hd : legalDescriptor k w = true) :
      Effect s (.chOpen ch kind width ts st ss) ((s.putChan c (some ⟨k, w, h, []⟩)).ok [])
  /-- One sample at the tail of a present capture (R91). -/
  | pushed (i : Instr) (c : Fin NCH) (cap : Capture) (o d v : PortWord) (hc : s.chan[c] = some cap)
      (hp : pushAccepts s.cfg cap o.toInt d.toInt v = true) :
      Effect s i ((s.putChan c (some (cap.append ⟨o.toInt, d.toNat, v.setWidth 32⟩))).ok [])
  /-- A channel dropped (R92). -/
  | dropped (ch : Octet) (c : Fin NCH) : Effect s (.chDrop ch) ((s.putChan c none).ok [])
  /-- A slot bound or cleared (41_config.md R110, R112). -/
  | bound (i : Instr) (k : Fin NSLOT) (v : Option (Fin NCH)) : Effect s i ((s.putBind k v).ok [])
  /-- The lane set (R114). -/
  | laned (i : Instr) (l : Fin 3) : Effect s i ((s.putLane l).ok [])
  /-- `out[0]` installed: the resampled capture, or absent (42_resampler.md R131, R132). -/
  | refreshedRs (i : Instr) (v : Option Capture) (hv : ∀ cap, v = some cap → ∃ mode, s.rsOutput mode = .ok cap) :
      Effect s i ((s.installRs v).ok [])
  /-- `out[1]` installed: the frames, or absent (43_framer.md R147). -/
  | refreshedGmii (i : Instr) (v : Option GmiiCapture) (hv : ∀ o, v = some o → s.gmiiOutput = .ok o) :
      Effect s i ((s.installGmii v).ok [])
  /-- `out[2]` installed: the symbols of a finished walk, or absent (45_tmds_classify.md R182). -/
  | refreshedTmds (i : Instr) (v : Option TmdsCapture)
      (hv : ∀ o, v = some o → ∃ u, s.startWalk = .ok u ∧ o = (u.finish s.cfg).capture) :
      Effect s i ((s.installTmds v).ok [])
  /-- One symbol emitted in the open classification, a guard only where the history allows one (R174, R181). -/
  | emitted (i : Instr) (u : Walk) (sym : Symbol) (hu : s.walk = some u) (hw : u.hasWindow = true)
      (hg : sym = .guard → u.last ≠ .data) : Effect s i (s.putWalk (some (u.emit sym)))

/-! ### One lemma per instruction that writes more than an answer -/

theorem execChOpen_effect (ch kind width : Octet) (ts st ss : PortWord) (s t : State)
    (h : execChOpen ch kind width ts st ss s = .next t) : Effect s (.chOpen ch kind width ts st ss) t := by
  unfold execChOpen at h
  split at h
  · next c k w _ hd =>
    cases h
    exact .opened _ _ _ _ _ _ _ _ _ _ (descriptorOf_legal _ _ _ _ hd)
  · cases h
    exact .answered _ _

theorem execChPush_effect (ch : Octet) (o d v : PortWord) (i : Instr) (s t : State)
    (h : execChPush ch o d v s = .next t) : Effect s i t := by
  unfold execChPush at h
  split at h
  · cases h
    exact .answered _ _
  · split at h
    · cases h
      exact .answered _ _
    · next cap hc =>
      split at h
      · next hp =>
        cases h
        exact .pushed _ _ cap _ _ _ hc hp
      · cases h
        exact .answered _ _

theorem execChDrop_effect (ch : Octet) (s t : State) (h : execChDrop ch s = .next t) : Effect s (.chDrop ch) t := by
  unfold execChDrop at h
  split at h <;> cases h
  · exact .answered _ _
  · exact .dropped _ _

theorem execBind_effect (slot ch : Octet) (i : Instr) (s t : State) (h : execBind slot ch s = .next t) :
    Effect s i t := by
  unfold execBind at h
  split at h
  · split at h
    · cases h
      exact .answered _ _
    · split at h <;> cases h
      · exact .bound _ _ _
      · exact .answered _ _
  · cases h
    exact .answered _ _

theorem execUnbind_effect (slot : Octet) (i : Instr) (s t : State) (h : execUnbind slot s = .next t) :
    Effect s i t := by
  unfold execUnbind at h
  split at h <;> cases h
  · exact .answered _ _
  · exact .bound _ _ _

theorem execLaneSet_effect (v : BitVec 16) (i : Instr) (s t : State) (h : execLaneSet v s = .next t) :
    Effect s i t := by
  unfold execLaneSet at h
  split at h <;> cases h
  · exact .answered _ _
  · exact .laned _ _

theorem refreshRs_effect (mode : EdgeMode) (i : Instr) (s : State) : Effect s i (refreshRs mode s) := by
  unfold refreshRs
  split
  · next cap hc => exact .refreshedRs _ _ fun _ h => ⟨mode, by cases h; exact hc⟩
  · exact .refreshedRs _ none (by simp)

theorem execGmiiRefresh_effect (i : Instr) (s t : State) (h : execGmiiRefresh s = .next t) : Effect s i t := by
  unfold execGmiiRefresh at h
  split at h <;> cases h
  · next cap hc => exact .refreshedGmii _ _ fun _ h => by cases h; exact hc
  · exact .refreshedGmii _ none (by simp)

theorem execTmdsRefresh_effect (i : Instr) (s t : State) (h : execTmdsRefresh s = .next t) : Effect s i t := by
  unfold execTmdsRefresh at h
  split at h <;> cases h
  · next u hu => exact .refreshedTmds _ _ fun _ h => ⟨u, hu, by cases h; rfl⟩
  · exact .refreshedTmds _ none (by simp)

theorem onWindow_effect (f : Config → WindowContext → Symbol)
    (hf : ∀ cfg ctx, f cfg ctx = .guard → ctx.guardOpen = true) (i : Instr) (s t : State)
    (h : onWindow f s = .next t) : Effect s i t := by
  obtain ⟨u, hu, hw, rfl⟩ := (onWindow_eq_next f s t).1 h
  refine .emitted _ u _ hu hw fun hs => ?_
  simpa [WindowContext.guardOpen, Walk.context] using hf _ _ hs

theorem controlArm_effect (j : Fin 4) (i : Instr) (s t : State) (h : controlArm j s = .next t) : Effect s i t :=
  onWindow_effect _ (by simp) i s t h

theorem guardArm_effect (l : Fin 3) (i : Instr) (s t : State) (h : guardArm l s = .next t) : Effect s i t :=
  onWindow_effect _ (by intro cfg ctx; split <;> simp_all) i s t h

theorem dataArm_effect (d9 d8 : Bool) (d : Octet) (i : Instr) (s t : State) (h : dataArm d9 d8 d s = .next t) :
    Effect s i t :=
  onWindow_effect _ (by simp) i s t h

/-! ### The instructions that only answer -/

theorem execChStat_effect (ch : Octet) (i : Instr) (s t : State) (h : execChStat ch s = .next t) : Effect s i t := by
  unfold execChStat at h
  split at h <;> cases h <;> exact .answered _ _

theorem execChRd_effect (ch : Octet) (idx : PortWord) (i : Instr) (s t : State) (h : execChRd ch idx s = .next t) :
    Effect s i t := by
  unfold execChRd at h
  split at h
  · cases h
    exact .answered _ _
  · split at h <;> cases h <;> exact .answered _ _

theorem execBindGet_effect (slot : Octet) (i : Instr) (s t : State) (h : execBindGet slot s = .next t) :
    Effect s i t := by
  unfold execBindGet at h
  split at h <;> cases h <;> exact .answered _ _

theorem execOutStat_effect (u : Octet) (i : Instr) (s t : State) (h : execOutStat u s = .next t) : Effect s i t := by
  unfold execOutStat at h
  split at h <;> cases h <;> exact .answered _ _

theorem execOutRd_effect (u : Octet) (idx : PortWord) (i : Instr) (s t : State) (h : execOutRd u idx s = .next t) :
    Effect s i t := by
  unfold execOutRd at h
  split at h
  · cases h
    exact .answered _ _
  · split at h <;> cases h <;> exact .answered _ _

theorem execOutByte_effect (f k : PortWord) (i : Instr) (s t : State) (h : execOutByte f k s = .next t) :
    Effect s i t := by
  unfold execOutByte at h
  split at h <;> cases h <;> exact .answered _ _

/-! ### All instructions, and the step -/

/-- What an instruction that answers a next state has done is one of the effects. -/
theorem exec_effect (i : Instr) (s t : State) (h : exec i s = .next t) : Effect s i t := by
  cases i with
  | chOpen => exact execChOpen_effect _ _ _ _ _ _ s t h
  | chPush => exact execChPush_effect _ _ _ _ _ s t h
  | chDrop => exact execChDrop_effect _ s t h
  | chStat => exact execChStat_effect _ _ s t h
  | chRd => exact execChRd_effect _ _ _ s t h
  | bind => exact execBind_effect _ _ _ s t h
  | unbind => exact execUnbind_effect _ _ s t h
  | bindGet => exact execBindGet_effect _ _ s t h
  | laneSet => exact execLaneSet_effect _ _ s t h
  | laneGet =>
    cases h
    exact .answered _ _
  | rsRise =>
    cases h
    exact refreshRs_effect .rising _ s
  | rsAny =>
    cases h
    exact refreshRs_effect .any _ s
  | gmiiRefresh => exact execGmiiRefresh_effect _ s t h
  | tmdsRefresh => exact execTmdsRefresh_effect _ s t h
  | outStat => exact execOutStat_effect _ _ s t h
  | outRd => exact execOutRd_effect _ _ _ s t h
  | outByte => exact execOutByte_effect _ _ _ s t h
  | control0 => exact controlArm_effect 0 _ s t h
  | control1 => exact controlArm_effect 1 _ s t h
  | control2 => exact controlArm_effect 2 _ s t h
  | control3 => exact controlArm_effect 3 _ s t h
  | guardLane0 => exact guardArm_effect 0 _ s t h
  | guardLane1 => exact guardArm_effect 1 _ s t h
  | guardLane2 => exact guardArm_effect 2 _ s t h
  | data00 => exact dataArm_effect false false _ _ s t h
  | data01 => exact dataArm_effect false true _ _ s t h
  | data10 => exact dataArm_effect true false _ _ s t h
  | data11 => exact dataArm_effect true true _ _ s t h

/-- Everything a step can do: nothing on an incomplete command, reject an illegal header, run the command at the head of the
port with its words taken, run the window of an open classification, or install it when no window is left. -/
theorem step_cases (s t : State) (h : step s = .next t) :
    (s.walk = none ∧ decode s.portIn = .incomplete ∧ t = s) ∨
    (∃ why rest, s.walk = none ∧ decode s.portIn = .illegal why rest ∧ t = (s.putPort rest).reject) ∨
    (∃ i rest, s.walk = none ∧ decode s.portIn = .instr i rest ∧ Effect (s.putPort rest) i t) ∨
    (∃ u, s.walk = some u ∧ u.hasWindow = true ∧ Effect s (decodeWindow s.cfg u.context u.window) t) ∨
    (∃ u, s.walk = some u ∧ u.hasWindow = false ∧ t = (s.installWalk u).putWalk none) := by
  unfold step at h
  cases hu : s.walk with
  | none =>
    rw [fetch_closed s hu, fetchCommand] at h
    cases hd : decode s.portIn <;> rw [hd] at h
    case incomplete =>
      cases h
      exact .inl ⟨rfl, rfl, rfl⟩
    case illegal why rest =>
      cases h
      exact .inr (.inl ⟨why, rest, rfl, rfl, rfl⟩)
    case instr i rest => exact .inr (.inr (.inl ⟨i, rest, rfl, rfl, exec_effect i _ t h⟩))
  | some u =>
    rw [fetch_open s u hu, fetchWindow] at h
    cases hw : u.hasWindow <;> rw [hw] at h
    case true => exact .inr (.inr (.inr (.inl ⟨u, rfl, hw, exec_effect _ s t h⟩)))
    case false =>
      cases h
      exact .inr (.inr (.inr (.inr ⟨u, rfl, hw, rfl⟩)))

/-- A property that does not read the port holds after every step, if every effect keeps it and so does installing a
finished classification. -/
theorem step_keeps (P : State → Prop) (hport : ∀ s rest, P s → P (s.putPort rest))
    (heffect : ∀ s i t, Effect s i t → P s → P t)
    (hinstall : ∀ s u, s.walk = some u → u.hasWindow = false → P s → P ((s.installWalk u).putWalk none))
    (s t : State) (hs : P s) (h : step s = .next t) : P t := by
  rcases step_cases s t h with ⟨-, -, rfl⟩ | ⟨why, rest, -, -, rfl⟩ | ⟨i, rest, -, -, he⟩ | ⟨u, -, -, he⟩ | ⟨u, hu, hw, rfl⟩
  · exact hs
  · -- a refusal is an answer, whatever the instruction would have been
    exact heffect _ .laneGet _ (.answered _ _) (hport s rest hs)
  · exact heffect _ i t he (hport s rest hs)
  · exact heffect s _ t he hs
  · exact hinstall s u hu hw hs

end Sys2Proof.Machine
end

section
/-! The capture storage: what each effect does to it (10_state.md R12, R13). -/

namespace Sys2Proof.Machine

/-! ### The form of a capture -/

/-- A span inside the tick range, as three inequalities. -/
theorem spanFits_iff (limit start stop : Int) :
    spanFits limit start stop = true ↔ -(2 ^ 63) ≤ start ∧ start ≤ stop ∧ stop ≤ limit := by
  simp [spanFits]

/-- What a sample of a capture is. -/
theorem Sample.fits_iff (limit : Int) (width : Nat) (x : Sample) :
    x.fits limit width = true ↔ spanFits limit x.offset x.stop = true ∧ x.value.toNat < 2 ^ width := by
  simp [Sample.fits]

/-- A sample never ends before it starts: its duration is a natural number. -/
theorem Sample.offset_le_stop (x : Sample) : x.offset ≤ x.stop := by
  simp [Sample.stop]

/-- What a well-formed capture is (10_state.md R11, R12). -/
theorem Capture.wf_iff (depth : Option Nat) (limit : Int) (cap : Capture) :
    cap.wf depth limit = true ↔
      legalDescriptor cap.kind cap.width = true ∧ (∀ x ∈ cap.samples, x.fits limit cap.width = true) ∧
        ordered cap.samples = true ∧ withinDepth depth cap.samples.length = true := by
  simp only [Capture.wf, Bool.and_eq_true, List.all_eq_true, and_assoc]

/-- A length below one that `DEPTH` admits is admitted too. -/
theorem withinDepth_mono {depth : Option Nat} {m n : Nat} (h : m ≤ n) (hn : withinDepth depth n = true) :
    withinDepth depth m = true := by
  cases depth with
  | none => rfl
  | some d => simpa [withinDepth] using h.trans (by simpa [withinDepth] using hn)

/-- The ordering invariant of consecutive samples holds of every pair (10_state.md R12). -/
theorem ordered_iff_pairwise (l : List Sample) :
    ordered l = true ↔ l.Pairwise fun x y => x.stop ≤ y.offset := by
  induction l with
  | nil => simp [ordered]
  | cons x l ih =>
    cases l with
    | nil => simp [ordered]
    | cons y l =>
      rw [ordered, Bool.and_eq_true, decide_eq_true_iff, ih, List.pairwise_cons (a := x), and_congr_left_iff]
      refine fun hp => ⟨fun hxy z hz => ?_, fun h => h y (by simp)⟩
      rcases List.mem_cons.1 hz with rfl | hz
      · exact hxy
      · exact (hxy.trans y.offset_le_stop).trans ((List.pairwise_cons.1 hp).1 z hz)

/-- Samples in order have sorted offsets. -/
theorem sortedOffsets_of_ordered {l : List Sample} (h : ordered l = true) : SortedOffsets l :=
  ((ordered_iff_pairwise l).1 h).imp fun {x _} hxy => x.offset_le_stop.trans hxy

/-! ### The storage stays sound -/

/-- A sample that CH.PUSH accepts fits the capture: signed words lie in the tick range, and the 32-bit value is no larger than
the word that was tested. -/
theorem fits_of_pushAccepts (cfg : Config) (cap : Capture) (o d v : PortWord)
    (h : pushAccepts cfg cap o.toInt d.toInt v = true) :
    Sample.fits TMAX cap.width ⟨o.toInt, d.toNat, v.setWidth 32⟩ = true := by
  obtain ⟨-, hd, hstop, hv, -⟩ := (pushAccepts_iff cfg cap _ _ v).1 h
  have hdur : d.toInt = d.toNat := by
    rw [BitVec.toInt_eq_toNat_of_msb]
    by_contra hm
    have := BitVec.toInt_neg_of_msb_true (x := d) (by simpa using hm)
    omega
  have hend : o.toInt + d.toNat ≤ TMAX := hdur ▸ hstop
  have hlow : -(2 ^ 63) ≤ o.toInt := BitVec.le_toInt o
  have hval : (v.setWidth 32).toNat ≤ v.toNat := by
    rw [BitVec.toNat_setWidth]
    exact Nat.mod_le _ _
  rw [Sample.fits_iff, spanFits_iff]
  exact ⟨⟨hlow, Sample.offset_le_stop _, hend⟩, hval.trans_lt hv⟩

/-- A capture with an accepted sample appended is well-formed (40_fifo.md R91). -/
theorem capture_wf_push (cfg : Config) (cap : Capture) (o d v : PortWord) (hc : cap.wf cfg.depth TMAX = true)
    (h : pushAccepts cfg cap o.toInt d.toInt v = true) :
    (cap.append ⟨o.toInt, d.toNat, v.setWidth 32⟩).wf cfg.depth TMAX = true := by
  obtain ⟨hfull, -, -, -, hlast⟩ := (pushAccepts_iff cfg cap _ _ v).1 h
  exact capture_wf_append _ _ _ hc (fits_of_pushAccepts cfg cap o d v h) hlast hfull

/-- The captures of a sound storage are well-formed. -/
theorem State.StorageSound.chan_wf {s : State} (hs : s.StorageSound) {c : Fin NCH} {cap : Capture}
    (h : s.chan[c] = some cap) : cap.wf s.cfg.depth TMAX = true :=
  (memory_wf_iff _ _).1 hs c cap h

/-- Every effect keeps the storage sound; only opening, pushing and dropping write it. -/
theorem Effect.storageSound {s t : State} {i : Instr} (h : Effect s i t) (hs : s.StorageSound) : t.StorageSound := by
  cases h with
  | opened _ _ _ _ _ _ c k w hdr hd =>
    refine memory_wf_set _ _ c _ hs fun cap e => ?_
    cases e
    exact capture_wf_empty _ k w hdr hd
  | pushed _ c cap o d v hc hp =>
    refine memory_wf_set _ _ c _ hs fun cap' e => ?_
    cases e
    exact capture_wf_push s.cfg cap o d v (hs.chan_wf hc) hp
  | dropped _ c => exact memory_wf_drop _ _ c hs
  | answered | bound | laned | refreshedRs | refreshedGmii | refreshedTmds | emitted => exact hs

/-- Settles O56: every effect keeps the storage sound, and a step that installs a classification does not write it. -/
theorem stepKeepsTheStorageSound : Obligations.StepKeepsTheStorageSound :=
  step_keeps State.StorageSound (fun _ _ hs => hs) (fun _ _ _ he hs => he.storageSound hs) (fun _ _ _ _ hs => hs)

/-! ### No classification stays open -/

/-- An effect opens no classification: it only advances one that stands open. -/
theorem Effect.walk_none {s t : State} {i : Instr} (h : Effect s i t) (hs : s.walk = none) : t.walk = none := by
  cases h with
  | emitted _ u _ hu => simp [hu] at hs
  | answered | opened | pushed | dropped | bound | laned | refreshedRs | refreshedGmii | refreshedTmds => exact hs

/-- Settles O11. -/
theorem noClassificationStaysOpen : Obligations.NoClassificationStaysOpen :=
  step_keeps (fun s => s.walk = none) (fun _ _ hs => hs) (fun _ _ _ he hs => he.walk_none hs) (fun _ _ _ _ _ => rfl)

/-! ### Pushed samples stay -/

/-- Reading a sample: the channel holds a capture with that sample. -/
theorem capRead_eq_some (s : State) (c : Fin NCH) (n : Nat) (x : Sample) :
    s.capRead c n = some x ↔ ∃ cap, s.chan[c] = some cap ∧ cap.samples[n]? = some x := by
  unfold State.capRead
  cases s.chan[c] <;> simp

/-- Appending to a capture leaves the samples it had where they are. -/
theorem capRead_putChan_append (s : State) (c c' : Fin NCH) (cap : Capture) (y x : Sample) (n : Nat)
    (hc : s.chan[c] = some cap) (h : s.capRead c' n = some x) :
    (s.putChan c (some (cap.append y))).capRead c' n = some x := by
  obtain ⟨cap', hc', hx⟩ := (capRead_eq_some s c' n x).1 h
  rw [capRead_eq_some]
  by_cases e : c = c'
  · subst e
    obtain rfl : cap = cap' := Option.some.inj (hc.symm.trans hc')
    refine ⟨_, putChan_same s c _, ?_⟩
    rw [Capture.append, List.getElem?_append_left (List.getElem?_eq_some_iff.1 hx).1, hx]
  · exact ⟨cap', (putChan_other s c c' _ e).trans hc', hx⟩

/-- Settles O20: of the effects that write the storage, only pushing belongs to another instruction than CH.OPEN and CH.DROP,
and it appends. -/
theorem pushedSamplesStay : Obligations.PushedSamplesStay := by
  intro i s t h hopen hdrop c n x hx
  cases exec_effect i s t h with
  | opened => exact absurd rfl (hopen _ _ _ _ _ _)
  | dropped => exact absurd rfl (hdrop _)
  | pushed _ c' cap o d v hc => exact capRead_putChan_append s c' c cap _ x n hc hx
  | answered | bound | laned | refreshedRs | refreshedGmii | refreshedTmds | emitted => exact hx

/-! ### Reset -/

/-- Settles O54. -/
theorem resetClearsTheState : Obligations.ResetClearsTheState :=
  ⟨fun s => ⟨State.resetWith_chan s.cfg, State.resetWith_bind s.cfg, rfl, rfl, rfl, rfl, rfl, rfl, rfl⟩, rfl⟩

/-- The reset state of a configuration has every invariant: it holds no capture, no output and no classification. -/
theorem resetWith_sound (cfg : Config) :
    (State.resetWith cfg).StorageSound ∧ (State.resetWith cfg).RsSound ∧ (State.resetWith cfg).GmiiSound ∧
      (State.resetWith cfg).TmdsSound ∧ (State.resetWith cfg).walk = none :=
  ⟨memory_wf_reset cfg, by simp [State.RsSound], by simp [State.GmiiSound], by simp [State.TmdsSound], rfl⟩

/-- Settles O60. -/
theorem resetIsSound : Obligations.ResetIsSound :=
  ⟨resetWith_sound Config.default, resetWith_sound⟩

end Sys2Proof.Machine
end

section
/-! Unit U1: what the captures a refresh gathers are, and what a resampled stream keeps of them (42_resampler.md R126,
R127). -/

namespace Sys2Proof.Machine

/-! ### Gathering from a sound storage -/

/-- The captures gathered are the slots' captures, in order. -/
theorem boundCaptures_eq_ok (s : State) (slots : List (Fin NSLOT)) (caps : List Capture)
    (h : s.boundCaptures slots = .ok caps) : slots.map s.slotCapture = caps.map some := by
  induction slots generalizing caps with
  | nil =>
    cases h
    rfl
  | cons k slots ih =>
    rw [State.boundCaptures] at h
    split at h
    · cases h
    · next cap hcap =>
      split at h
      · cases h
      · next caps' hcaps =>
        cases h
        simp [(boundCapture_eq_ok s k cap).1 hcap, ih caps' hcaps]

/-- A gather that succeeds answers the captures of its slots. -/
theorem slotCapture_of_gather (s : State) (slots : List (Fin NSLOT)) (caps : List Capture)
    (h : s.gather slots = .ok caps) : slots.map s.slotCapture = caps.map some := by
  unfold State.gather at h
  split at h
  · cases h
  · next hcaps =>
    split at h <;> cases h
    exact boundCaptures_eq_ok s slots caps hcaps

/-- The capture of a slot is one of the storage, so it is well-formed when the storage is sound. -/
theorem State.StorageSound.slotCapture_wf {s : State} (hs : s.StorageSound) {k : Fin NSLOT} {cap : Capture}
    (h : s.slotCapture k = some cap) : cap.wf s.cfg.depth TMAX = true := by
  obtain ⟨c, -, hc⟩ := Option.bind_eq_some_iff.1 h
  exact hs.chan_wf hc

/-- Every capture that a refresh gathers from a sound storage is well-formed. -/
theorem State.StorageSound.gather_wf {s : State} (hs : s.StorageSound) {slots : List (Fin NSLOT)} {caps : List Capture}
    (h : s.gather slots = .ok caps) : ∀ cap ∈ caps, cap.wf s.cfg.depth TMAX = true := by
  intro cap hcap
  have hmem : some cap ∈ slots.map s.slotCapture := by
    rw [slotCapture_of_gather s slots caps h]
    exact List.mem_map_of_mem hcap
  obtain ⟨k, -, hk⟩ := List.mem_map.1 hmem
  exact hs.slotCapture_wf hk

/-! ### The edges -/

/-- The edge times are offsets of clock samples, each used once, in order. -/
theorem resampleFrom_times (mode : EdgeMode) (prev : Bool) (held : Option (BitVec 32)) (ds cs : List Sample) :
    ((resampleFrom mode prev held ds cs).map Prod.fst).Sublist (cs.map Sample.offset) := by
  induction cs generalizing prev held ds with
  | nil => exact .slnil
  | cons c cs ih =>
    rw [resampleFrom]
    split
    · split
      · exact (ih ..).cons_cons _
      · exact (ih ..).cons _
    · exact (ih ..).cons _

/-- The same from the first clock sample on, which is never an edge (R129). -/
theorem resampleEdges_times (mode : EdgeMode) (d c : List Sample) :
    ((resampleEdges mode d c).map Prod.fst).Sublist (c.map Sample.offset) := by
  cases c with
  | nil => exact .slnil
  | cons c cs => exact (resampleFrom_times mode c.bit none d cs).cons _

/-- The data cursor holds only values of the data samples it passed, and leaves some of the rest. -/
theorem advanceData_values (P : BitVec 32 → Prop) (t : Int) (held : Option (BitVec 32)) (ds : List Sample)
    (hheld : ∀ v, held = some v → P v) (hds : ∀ x ∈ ds, P x.value) :
    (∀ v, (advanceData t held ds).1 = some v → P v) ∧ ∀ x ∈ (advanceData t held ds).2, P x.value := by
  induction ds generalizing held with
  | nil => exact ⟨hheld, hds⟩
  | cons d ds ih =>
    obtain ⟨hd, hrest⟩ := List.forall_mem_cons.1 hds
    rw [advanceData]
    split
    · exact ih (some d.value) (by rintro v ⟨⟩; exact hd) hrest
    · exact ⟨hheld, hds⟩

/-- The values at the edges are values of data samples (R123). -/
theorem resampleFrom_values (P : BitVec 32 → Prop) (mode : EdgeMode) (prev : Bool) (held : Option (BitVec 32))
    (ds cs : List Sample) (hheld : ∀ v, held = some v → P v) (hds : ∀ x ∈ ds, P x.value) :
    ∀ p ∈ resampleFrom mode prev held ds cs, P p.2 := by
  induction cs generalizing prev held ds with
  | nil => simp [resampleFrom]
  | cons c cs ih =>
    obtain ⟨hv, hrest⟩ := advanceData_values P c.offset held ds hheld hds
    rw [resampleFrom]
    split
    · split
      · next v ds' he =>
        rw [he] at hv hrest
        exact List.forall_mem_cons.2 ⟨hv v rfl, ih _ _ ds' hv hrest⟩
      · next ds' he =>
        rw [he] at hv hrest
        exact ih _ _ ds' hv hrest
    · exact ih _ held ds hheld hds

/-- The values at the edges of the whole clock. -/
theorem resampleEdges_values (P : BitVec 32 → Prop) (mode : EdgeMode) (d c : List Sample) (hd : ∀ x ∈ d, P x.value) :
    ∀ p ∈ resampleEdges mode d c, P p.2 := by
  cases c with
  | nil => simp [resampleEdges]
  | cons c cs => exact resampleFrom_values P mode c.bit none d cs (by simp) hd

/-! ### The durations -/

/-- Giving durations keeps the times. -/
theorem withDurations_offsets (l : List (Int × BitVec 32)) : (withDurations l).map Sample.offset = l.map Prod.fst := by
  induction l using withDurations.induct <;> simp_all [withDurations]

/-- Giving durations keeps the values. -/
theorem withDurations_values (l : List (Int × BitVec 32)) : (withDurations l).map Sample.value = l.map Prod.snd := by
  induction l using withDurations.induct <;> simp_all [withDurations]

/-- On sorted times each sample ends at the latest where the next starts, and the last one tick after its start (R127). -/
theorem withDurations_ordered (l : List (Int × BitVec 32)) (h : (l.map Prod.fst).Pairwise (· ≤ ·)) :
    ordered (withDurations l) = true := by
  induction l using withDurations.induct with
  | case1 => rfl
  | case2 => rfl
  | case3 t v t' v' rest ih =>
    obtain ⟨hle, hrest⟩ := List.pairwise_cons.1 h
    have htt : t ≤ t' := hle t' (by simp)
    rw [ordered_iff_pairwise, withDurations, List.pairwise_cons]
    refine ⟨fun y hy => ?_, (ordered_iff_pairwise _).1 (ih hrest)⟩
    have hy' : y.offset ∈ t' :: rest.map Prod.fst := by
      have := List.mem_map_of_mem (f := Sample.offset) hy
      rwa [withDurations_offsets] at this
    have hty : t' ≤ y.offset := by
      rcases List.mem_cons.1 hy' with e | hm
      · exact e.ge
      · exact (List.pairwise_cons.1 hrest).1 _ hm
    simp only [Sample.stop]
    omega

/-- Times at most `limit` give samples that end at most one tick later. -/
theorem withDurations_stop_le (limit : Int) (l : List (Int × BitVec 32)) (h : ∀ p ∈ l, p.1 ≤ limit) :
    ∀ x ∈ withDurations l, x.stop ≤ limit + 1 := by
  induction l using withDurations.induct with
  | case1 => simp [withDurations]
  | case2 t v =>
    have ht : t ≤ limit := h (t, v) (by simp)
    simpa [withDurations, Sample.stop] using ht
  | case3 t v t' v' rest ih =>
    have ht : t ≤ limit := h (t, v) (by simp)
    have ht' : t' ≤ limit := h (t', v') (by simp)
    rw [withDurations, List.forall_mem_cons]
    refine ⟨?_, ih fun p hp => h p (List.mem_cons_of_mem _ hp)⟩
    simp only [Sample.stop]
    omega

/-! ### The resampled stream -/

/-- The offsets of the result are offsets of clock samples, each used once, in order. -/
theorem resample_offsets (mode : EdgeMode) (d c : List Sample) :
    ((resample mode d c).map Sample.offset).Sublist (c.map Sample.offset) := by
  rw [resample, withDurations_offsets]
  exact resampleEdges_times mode d c

/-- The result has no more samples than the clock (R128). -/
theorem resample_length_le (mode : EdgeMode) (d c : List Sample) : (resample mode d c).length ≤ c.length := by
  simpa using (resample_offsets mode d c).length_le

/-- The values of the result are values of data samples. -/
theorem resample_values (P : BitVec 32 → Prop) (mode : EdgeMode) (d c : List Sample) (hd : ∀ x ∈ d, P x.value) :
    ∀ x ∈ resample mode d c, P x.value := by
  intro x hx
  have hv : x.value ∈ (resampleEdges mode d c).map Prod.snd := by
    rw [← withDurations_values]
    exact List.mem_map_of_mem hx
  obtain ⟨p, hp, e⟩ := List.mem_map.1 hv
  exact e ▸ resampleEdges_values P mode d c hd p hp

/-- On a clock in order the result is in order. -/
theorem resample_ordered (mode : EdgeMode) (d c : List Sample) (hc : ordered c = true) :
    ordered (resample mode d c) = true := by
  refine withDurations_ordered _ (List.Pairwise.sublist (resampleEdges_times mode d c) ?_)
  exact List.pairwise_map.2 (sortedOffsets_of_ordered hc)

/-- On a clock inside the tick range the spans of the result end one tick later at the latest (R127). -/
theorem resample_spans (mode : EdgeMode) (limit : Int) (d c : List Sample)
    (hc : ∀ x ∈ c, spanFits limit x.offset x.stop = true) :
    ∀ x ∈ resample mode d c, spanFits (limit + 1) x.offset x.stop = true := by
  have htime : ∀ t ∈ c.map Sample.offset, -(2 ^ 63) ≤ t ∧ t ≤ limit := by
    intro t ht
    obtain ⟨x, hx, rfl⟩ := List.mem_map.1 ht
    obtain ⟨hlow, hle, hstop⟩ := (spanFits_iff _ _ _).1 (hc x hx)
    exact ⟨hlow, hle.trans hstop⟩
  intro x hx
  rw [spanFits_iff]
  refine ⟨(htime _ ((resample_offsets mode d c).subset (List.mem_map_of_mem hx))).1, x.offset_le_stop, ?_⟩
  refine withDurations_stop_le limit _ (fun p hp => ?_) x hx
  exact (htime _ ((resampleEdges_times mode d c).subset (List.mem_map_of_mem hp))).2

/-- A stream that a refresh resamples: spans inside the tick range, in order, and no more samples than `DEPTH`. -/
structure StreamSound (depth : Option Nat) (st : List Sample) : Prop where
  spans : ∀ x ∈ st, spanFits (TMAX + 1) x.offset x.stop = true
  inOrder : ordered st = true
  inDepth : withinDepth depth st.length = true

/-- Resampling on the samples of a well-formed clock gives a sound stream, whatever the data. -/
theorem resample_sound (mode : EdgeMode) (depth : Option Nat) (d : List Sample) (clk : Capture)
    (hclk : clk.wf depth TMAX = true) : StreamSound depth (resample mode d clk.samples) := by
  obtain ⟨-, hfits, hord, hdepth⟩ := (Capture.wf_iff _ _ _).1 hclk
  exact ⟨resample_spans mode TMAX d _ fun x hx => ((Sample.fits_iff _ _ _).1 (hfits x hx)).1,
    resample_ordered mode d _ hord, withinDepth_mono (resample_length_le mode d _) hdepth⟩

/-! ### The output of the resampler -/

/-- What RS.RISE and RS.ANY compute from the captures they gather (R131, R132). -/
theorem rsOutput_eq_ok (s : State) (mode : EdgeMode) (cap : Capture) (h : s.rsOutput mode = .ok cap) :
    ∃ d c, s.gather [6, 7] = .ok [d, c] ∧ cap = ⟨d.kind, d.width, c.header, resample mode d.samples c.samples⟩ := by
  unfold State.rsOutput at h
  split at h <;> cases h
  exact ⟨_, _, ‹_›, rfl⟩

/-- What the resampler computes from a sound storage is a well-formed capture: the descriptor and the values are the data's,
the spans and the length come from the clock. -/
theorem rsOutput_wf (s : State) (mode : EdgeMode) (cap : Capture) (hs : s.StorageSound) (h : s.rsOutput mode = .ok cap) :
    cap.wf s.cfg.depth (TMAX + 1) = true := by
  obtain ⟨d, c, hg, rfl⟩ := rsOutput_eq_ok s mode cap h
  obtain ⟨hdesc, hdata, -, -⟩ := (Capture.wf_iff _ _ _).1 (hs.gather_wf hg d (by simp))
  have hst := resample_sound mode s.cfg.depth d.samples c (hs.gather_wf hg c (by simp))
  have hval := resample_values (fun v => v.toNat < 2 ^ d.width) mode d.samples c.samples fun x hx =>
    ((Sample.fits_iff _ _ _).1 (hdata x hx)).2
  exact (Capture.wf_iff _ _ _).2
    ⟨hdesc, fun x hx => (Sample.fits_iff _ _ _).2 ⟨hst.spans x hx, hval x hx⟩, hst.inOrder, hst.inDepth⟩

/-- Every effect on a sound storage keeps `out[0]` sound; only a refresh of the resampler writes it. -/
theorem Effect.rsSound {s t : State} {i : Instr} (h : Effect s i t) (hs : s.StorageSound) (ho : s.RsSound) :
    t.RsSound := by
  cases h with
  | refreshedRs _ v hv =>
    intro cap hcap
    obtain ⟨mode, hm⟩ := hv cap hcap
    exact rsOutput_wf s mode cap hs hm
  | answered | opened | pushed | dropped | bound | laned | refreshedGmii | refreshedTmds | emitted => exact ho

/-- Settles O57: the storage and `out[0]` are sound together after every effect. -/
theorem stepKeepsTheResamplerOutputSound : Obligations.StepKeepsTheResamplerOutputSound := by
  intro s t hs ho h
  refine (step_keeps (fun s => s.StorageSound ∧ s.RsSound) (fun _ _ hk => hk) ?_ (fun _ _ _ _ hk => hk) s t ⟨hs, ho⟩ h).2
  exact fun _ _ _ he hk => ⟨he.storageSound hk.1, he.rsSound hk.1 hk.2⟩

end Sys2Proof.Machine
end

section
/-! Unit U2: the frames of ordered data do not overlap (43_framer.md R143, R146). -/

namespace Sys2Proof.Machine

/-- What a frame is: an octet at least, and a span inside the tick range (10_state.md R17). -/
theorem Frame.wf_iff (f : Frame) : f.wf = true ↔ f.octets ≠ [] ∧ spanFits (TMAX + 1) f.start f.stop = true := by
  simp [Frame.wf]

/-- What holds of `out[1]` (R17, R32, 43_framer.md R146). -/
theorem GmiiCapture.wf_iff (depth : Option Nat) (o : GmiiCapture) :
    o.wf depth = true ↔
      (∀ f ∈ o.frames, f.wf = true) ∧ framesOrdered o.frames = true ∧ withinDepth depth o.frames.length = true := by
  simp only [GmiiCapture.wf, Bool.and_eq_true, List.all_eq_true, and_assoc]

/-- Frames of which every earlier one ends before every later one starts do not overlap. -/
theorem framesOrdered_of_pairwise (l : List Frame) (h : l.Pairwise fun f g => f.stop ≤ g.start) :
    framesOrdered l = true := by
  induction l with
  | nil => rfl
  | cons f l ih =>
    obtain ⟨hf, hl⟩ := List.pairwise_cons.1 h
    cases l with
    | nil => rfl
    | cons g l => simp [framesOrdered, ih hl, hf g (by simp)]

/-- A frame extended by a sample that starts at its end or later is a frame, and so is the frame a sample opens. -/
theorem extendFrame_wf (x : Sample) (op : Option Frame) (hx : spanFits (TMAX + 1) x.offset x.stop = true)
    (hop : ∀ f, op = some f → f.wf = true ∧ f.stop ≤ x.offset) : (extendFrame x op).wf = true := by
  cases op with
  | none => simpa [Frame.wf_iff, extendFrame] using hx
  | some f =>
    obtain ⟨hf, hstop⟩ := hop f rfl
    obtain ⟨hlow, hle, -⟩ := (spanFits_iff _ _ _).1 ((Frame.wf_iff f).1 hf).2
    obtain ⟨-, hxle, hhigh⟩ := (spanFits_iff _ _ _).1 hx
    rw [Frame.wf_iff, spanFits_iff]
    exact ⟨by simp [extendFrame], hlow, hle.trans (hstop.trans hxle), hhigh⟩

/-- The extended frame ends with the sample. -/
@[simp] theorem extendFrame_stop (x : Sample) (op : Option Frame) : (extendFrame x op).stop = x.stop := by
  cases op <;> rfl

/-- The extended frame starts where the open one did, or with the sample. -/
theorem le_extendFrame_start (b : Int) (x : Sample) (op : Option Frame) (hx : b ≤ x.offset)
    (hop : ∀ f, op = some f → b ≤ f.start) : b ≤ (extendFrame x op).start := by
  cases op with
  | none => exact hx
  | some f => exact hop f rfl

/-- No frame starts before the open frame and the data that is left. -/
theorem le_frameFrom_start (b : Int) (op : Option Frame) (ps : List (Sample × Sample))
    (hop : ∀ f, op = some f → b ≤ f.start) (hps : ∀ p ∈ ps, b ≤ p.1.offset) :
    ∀ g ∈ frameFrom op ps, b ≤ g.start := by
  induction ps generalizing op with
  | nil => cases op <;> simp_all [frameFrom]
  | cons p ps ih =>
    obtain ⟨hp, hrest⟩ := List.forall_mem_cons.1 hps
    rw [frameFrom]
    split
    · exact ih _ (by rintro f ⟨⟩; exact le_extendFrame_start b p.1 op hp hop) hrest
    · intro g hg
      rcases List.mem_append.1 hg with hg | hg
      · exact hop g (Option.mem_toList.1 hg)
      · exact ih none (by simp) hrest g hg

/-- There are no more frames than the open one and one for each sample (R146). -/
theorem frameFrom_length_le (op : Option Frame) (ps : List (Sample × Sample)) :
    (frameFrom op ps).length ≤ op.toList.length + ps.length := by
  induction ps generalizing op with
  | nil => cases op <;> simp [frameFrom]
  | cons p ps ih =>
    rw [frameFrom]
    split
    · have hrun := ih (some (extendFrame p.1 op))
      simp only [Option.toList_some, List.length_singleton] at hrun
      rw [List.length_cons]
      omega
    · have hrest := ih none
      simp only [Option.toList_none, List.length_nil] at hrest
      rw [List.length_append, List.length_cons]
      omega

/-- On data in order inside the tick range, after an open frame that has ended by then, the frames are well-formed and each
ends before the next starts. -/
theorem frameFrom_sound (op : Option Frame) (ps : List (Sample × Sample))
    (hspan : ∀ p ∈ ps, spanFits (TMAX + 1) p.1.offset p.1.stop = true)
    (hord : ps.Pairwise fun p q => p.1.stop ≤ q.1.offset)
    (hop : ∀ f, op = some f → f.wf = true ∧ ∀ p ∈ ps, f.stop ≤ p.1.offset) :
    (∀ g ∈ frameFrom op ps, g.wf = true) ∧ (frameFrom op ps).Pairwise fun f g => f.stop ≤ g.start := by
  induction ps generalizing op with
  | nil => cases op <;> simp_all [frameFrom]
  | cons p ps ih =>
    obtain ⟨hp, hspans⟩ := List.forall_mem_cons.1 hspan
    obtain ⟨hfirst, hrest⟩ := List.pairwise_cons.1 hord
    rw [frameFrom]
    split
    · refine ih _ hspans hrest ?_
      rintro f ⟨⟩
      refine ⟨extendFrame_wf p.1 op hp fun f hf => ⟨(hop f hf).1, (hop f hf).2 p (by simp)⟩, ?_⟩
      simpa using fun d e => hfirst (d, e)
    · obtain ⟨hwf, hpair⟩ := ih none hspans hrest (by simp)
      cases op with
      | none => exact ⟨hwf, hpair⟩
      | some f =>
        obtain ⟨hf, hstop⟩ := hop f rfl
        refine ⟨List.forall_mem_cons.2 ⟨hf, hwf⟩, List.pairwise_cons.2 ⟨?_, hpair⟩⟩
        exact le_frameFrom_start f.stop none ps (by simp) fun q hq => hstop q (List.mem_cons_of_mem _ hq)

/-- The frames of a sound data stream, whatever the enable of the same length, are a sound output. -/
theorem frames_sound (depth : Option Nat) (hdr : Header) (rd re : List Sample) (hlen : rd.length = re.length)
    (hrd : StreamSound depth rd) : GmiiCapture.wf depth ⟨hdr, frames rd re⟩ = true := by
  have hfst : (rd.zip re).map Prod.fst = rd := List.map_fst_zip hlen.le
  have hspan : ∀ p ∈ rd.zip re, spanFits (TMAX + 1) p.1.offset p.1.stop = true := fun p hp =>
    hrd.spans p.1 (List.of_mem_zip hp).1
  have hord : (rd.zip re).Pairwise fun p q => p.1.stop ≤ q.1.offset :=
    List.pairwise_map.1 (hfst ▸ (ordered_iff_pairwise rd).1 hrd.inOrder)
  obtain ⟨hwf, hpair⟩ := frameFrom_sound none (rd.zip re) hspan hord (by simp)
  refine (GmiiCapture.wf_iff _ _).2 ⟨hwf, framesOrdered_of_pairwise _ hpair, withinDepth_mono ?_ hrd.inDepth⟩
  simpa [frames, hlen] using frameFrom_length_le none (rd.zip re)

/-- What GMII.REFRESH computes from the captures it gathers, when the three resampled streams are equally long (R147,
R148). -/
theorem gmiiOutput_eq_ok (s : State) (o : GmiiCapture) (h : s.gmiiOutput = .ok o) :
    ∃ data clk en er, s.gather [0, 1, 2, 3] = .ok [data, clk, en, er] ∧
      (resample .rising data.samples clk.samples).length = (resample .rising en.samples clk.samples).length ∧
      o = ⟨clk.header, frames (resample .rising data.samples clk.samples) (resample .rising en.samples clk.samples)⟩ := by
  unfold State.gmiiOutput at h
  split at h
  · next data clk en er hg =>
    dsimp only at h
    split at h
    · next hlen =>
      cases h
      exact ⟨data, clk, en, er, hg, hlen.1, rfl⟩
    · cases h
  · cases h
  · cases h

/-- What the framer computes from a sound storage is a sound output. -/
theorem gmiiOutput_wf (s : State) (o : GmiiCapture) (hs : s.StorageSound) (h : s.gmiiOutput = .ok o) :
    o.wf s.cfg.depth = true := by
  obtain ⟨data, clk, en, er, hg, hlen, rfl⟩ := gmiiOutput_eq_ok s o h
  exact frames_sound _ _ _ _ hlen (resample_sound .rising s.cfg.depth _ clk (hs.gather_wf hg clk (by simp)))

/-- Every effect on a sound storage keeps `out[1]` sound; only a refresh of the framer writes it. -/
theorem Effect.gmiiSound {s t : State} {i : Instr} (h : Effect s i t) (hs : s.StorageSound) (ho : s.GmiiSound) :
    t.GmiiSound := by
  cases h with
  | refreshedGmii _ v hv => exact fun o e => gmiiOutput_wf s o hs (hv o e)
  | answered | opened | pushed | dropped | bound | laned | refreshedRs | refreshedTmds | emitted => exact ho

/-- Settles O58: the storage and `out[1]` are sound together after every effect. -/
theorem stepKeepsTheFramesSound : Obligations.StepKeepsTheFramesSound := by
  intro s t hs ho h
  refine (step_keeps (fun s => s.StorageSound ∧ s.GmiiSound) (fun _ _ hk => hk) ?_ (fun _ _ _ _ hk => hk) s t ⟨hs, ho⟩ h).2
  exact fun _ _ _ he hk => ⟨he.storageSound hk.1, he.gmiiSound hk.1 hk.2⟩

end Sys2Proof.Machine
end

section
/-! Unit U4: the walk over the windows of a stream keeps what it has built lawful (45_tmds_classify.md R172 to R182). -/

namespace Sys2Proof.Machine

/-! ### Lists of symbols -/

/-- What holds of the symbols of `out[2]` and of those an open classification has emitted. -/
structure SymbolsSound (l : List SymbolSample) : Prop where
  /-- The end of one is the offset of the next (R180). -/
  abut : contiguous l = true
  /-- No guard where the history is `DATA` (R181). -/
  lawful : guardLawful .data l = true
  /-- Their spans lie inside the tick range. -/
  fit : symbolsFit l = true

/-- Symbols with one more at the tail abut when it starts where the last of them ends. -/
theorem contiguous_append (l : List SymbolSample) (x : SymbolSample) :
    contiguous (l ++ [x]) = true ↔
      contiguous l = true ∧ ∀ y, l.getLast? = some y → y.offset + y.duration = x.offset := by
  induction l with
  | nil => simp [contiguous]
  | cons a l ih =>
    cases l with
    | nil => simp [contiguous]
    | cons b l =>
      simp only [List.cons_append, contiguous, Bool.and_eq_true, decide_eq_true_eq] at ih ⊢
      rw [ih, and_assoc, List.getLast?_cons_cons]

/-- The history is what the last symbol left (R178). -/
@[simp] theorem historyAfter_append (l : List SymbolSample) (x : SymbolSample) :
    historyAfter (l ++ [x]) = x.sym.leaves := by
  simp [historyAfter]

/-- Symbols with one more at the tail are lawful from a history on when it is no guard after `DATA`: after the last of them,
or after that history when there is none. -/
theorem guardLawful_append (prev : LastSymbolType) (l : List SymbolSample) (x : SymbolSample) :
    guardLawful prev (l ++ [x]) = true ↔
      guardLawful prev l = true ∧
        (x.sym = .guard → (l.getLast?.map fun y => y.sym.leaves).getD prev ≠ .data) := by
  induction l generalizing prev with
  | nil => simp [guardLawful, imp_iff_not_or]
  | cons a l ih =>
    have hlast : (((a :: l).getLast?.map fun y => y.sym.leaves).getD prev) =
        (l.getLast?.map fun y => y.sym.leaves).getD a.sym.leaves := by
      cases l <;> simp [List.getLast?_cons]
    rw [List.cons_append, guardLawful, guardLawful, Bool.and_eq_true, Bool.and_eq_true, ih, hlast, and_assoc]

/-- The history of the guard law from `DATA` on is the history register. -/
theorem historyAfter_eq (l : List SymbolSample) :
    historyAfter l = (l.getLast?.map fun y => y.sym.leaves).getD .data := by
  unfold historyAfter
  cases l.getLast? <;> rfl

/-- Sound symbols stay sound with one more that starts where the last ends, in the tick range, a guard only where the history
allows one. -/
theorem SymbolsSound.append {l : List SymbolSample} {x : SymbolSample} (hl : SymbolsSound l)
    (habut : ∀ y, l.getLast? = some y → y.offset + y.duration = x.offset)
    (hguard : x.sym = .guard → historyAfter l ≠ .data)
    (hspan : spanFits (TMAX + 1) x.offset (x.offset + x.duration) = true) : SymbolsSound (l ++ [x]) := by
  refine ⟨(contiguous_append l x).2 ⟨hl.abut, habut⟩, (guardLawful_append .data l x).2 ⟨hl.lawful, ?_⟩, ?_⟩
  · rwa [historyAfter_eq] at hguard
  · rw [symbolsFit, List.all_append, Bool.and_eq_true]
    exact ⟨hl.fit, by simpa using hspan⟩

/-- What holds of `out[2]` (10_state.md R18, R32, 60_exceptions.md R195). -/
theorem TmdsCapture.wf_iff (depth : Option Nat) (o : TmdsCapture) :
    o.wf depth = true ↔ o.symbols ≠ [] ∧ SymbolsSound o.symbols ∧ withinDepth depth o.symbols.length = true := by
  simp only [TmdsCapture.wf, Bool.and_eq_true, Bool.not_eq_true', List.isEmpty_eq_false_iff]
  constructor
  · rintro ⟨⟨⟨⟨hne, habut⟩, hlawful⟩, hfit⟩, hdepth⟩
    exact ⟨hne, ⟨habut, hlawful, hfit⟩, hdepth⟩
  · rintro ⟨hne, ⟨habut, hlawful, hfit⟩, hdepth⟩
    exact ⟨⟨⟨⟨hne, habut⟩, hlawful⟩, hfit⟩, hdepth⟩

/-! ### The span of a window -/

/-- The offset of a sample of the stream. -/
theorem offsetAt_of_lt (st : List Sample) (n : Nat) (h : n < st.length) : offsetAt st n = st[n].offset := by
  simp [offsetAt, h]

/-- With a sample after the window, its symbol ends where that sample starts (R172). -/
theorem symbolStop_of_lt (st : List Sample) (i : Nat) (h : i + 10 < st.length) : symbolStop st i = offsetAt st (i + 10) := by
  simp [symbolStop, offsetAt, h]

/-- With no sample after the window, its symbol ends with the window's last sample (R172). -/
theorem symbolStop_of_eq (st : List Sample) (i : Nat) (h : i + 10 = st.length) :
    symbolStop st i = (st[i + 9]'(by omega)).stop := by
  have hlast : i + 9 < st.length := by omega
  simp [symbolStop, h, hlast]

/-- In a sound stream the symbol of a complete window has a span inside the tick range. -/
theorem StreamSound.window_span {depth : Option Nat} {st : List Sample} (hst : StreamSound depth st) {i : Nat}
    (h : i + 10 ≤ st.length) : spanFits (TMAX + 1) (offsetAt st i) (symbolStop st i) = true := by
  have hi : i < st.length := by omega
  have hord := List.pairwise_iff_getElem.1 ((ordered_iff_pairwise st).1 hst.inOrder)
  have hspan : ∀ (n : Nat) (hn : n < st.length), -(2 ^ 63) ≤ st[n].offset ∧ st[n].offset ≤ st[n].stop ∧ st[n].stop ≤ TMAX + 1 :=
    fun n hn => (spanFits_iff _ _ _).1 (hst.spans _ (List.getElem_mem hn))
  obtain ⟨hlow, hle, -⟩ := hspan i hi
  rw [spanFits_iff, offsetAt_of_lt st i hi]
  rcases h.lt_or_eq with hlt | heq
  · rw [symbolStop_of_lt st i hlt, offsetAt_of_lt st _ hlt]
    obtain ⟨-, hle', hhigh⟩ := hspan (i + 10) hlt
    exact ⟨hlow, hle.trans (hord i (i + 10) hi hlt (by omega)), hle'.trans hhigh⟩
  · have hlast : i + 9 < st.length := by omega
    rw [symbolStop_of_eq st i heq]
    obtain ⟨-, hle', hhigh⟩ := hspan (i + 9) hlast
    exact ⟨hlow, (hle.trans (hord i (i + 9) hi hlast (by omega))).trans hle', hhigh⟩

/-! ### The walk -/

/-- A complete window stands at the cursor (R171). -/
theorem Walk.hasWindow_iff (u : Walk) : u.hasWindow = true ↔ u.cursor + 10 ≤ u.stream.length := by
  simp [Walk.hasWindow]

/-- `Walk.wf` with its parts named. -/
structure WalkSound (depth : Option Nat) (u : Walk) : Prop where
  stream : StreamSound depth u.stream
  symbols : SymbolsSound u.symbols
  /-- The history register is what the last symbol left (R178). -/
  history : u.last = historyAfter u.symbols
  /-- The cursor has passed ten samples for each symbol. -/
  counted : 10 * u.symbols.length ≤ u.cursor
  inside : u.cursor ≤ u.stream.length
  /-- A symbol has been emitted, or one will be. -/
  started : u.symbols ≠ [] ∨ u.hasWindow = true
  /-- The last symbol ends where the sample at the cursor starts, if there is one. -/
  reached : ∀ x, u.symbols.getLast? = some x →
    u.stream.length ≤ u.cursor ∨ x.offset + x.duration = offsetAt u.stream u.cursor

/-- The model's check of an open classification says exactly that. -/
theorem Walk.wf_iff (depth : Option Nat) (u : Walk) : u.wf depth = true ↔ WalkSound depth u := by
  simp only [Walk.wf, Bool.and_eq_true, List.all_eq_true, beq_iff_eq, decide_eq_true_eq, Bool.or_eq_true,
    Bool.not_eq_true', List.isEmpty_eq_false_iff]
  constructor
  · rintro ⟨⟨⟨⟨⟨⟨⟨⟨⟨hspans, hord⟩, hdepth⟩, habut⟩, hlawful⟩, hfit⟩, hhist⟩, hcount, hin⟩, hstart⟩, hreach⟩
    refine ⟨⟨hspans, hord, hdepth⟩, ⟨habut, hlawful, hfit⟩, hhist, hcount, hin, hstart, fun x hx => ?_⟩
    simpa [hx] using hreach
  · rintro ⟨⟨hspans, hord, hdepth⟩, ⟨habut, hlawful, hfit⟩, hhist, hcount, hin, hstart, hreach⟩
    refine ⟨⟨⟨⟨⟨⟨⟨⟨⟨hspans, hord⟩, hdepth⟩, habut⟩, hlawful⟩, hfit⟩, hhist⟩, hcount, hin⟩, hstart⟩, ?_⟩
    cases hx : u.symbols.getLast? with
    | none => rfl
    | some x => simpa using hreach x hx

/-- Emitting the symbol of a complete window keeps the classification sound, when a guard is emitted only where the history
allows one (R172 to R175). -/
theorem WalkSound.emit {depth : Option Nat} {u : Walk} {sym : Symbol} (hu : WalkSound depth u) (hw : u.hasWindow = true)
    (hg : sym = .guard → u.last ≠ .data) : WalkSound depth (u.emit sym) := by
  rw [Walk.hasWindow_iff] at hw
  have hspan := hu.stream.window_span hw
  have hstop : offsetAt u.stream u.cursor + ((symbolStop u.stream u.cursor - offsetAt u.stream u.cursor).toNat : Int) =
      symbolStop u.stream u.cursor := by
    have := ((spanFits_iff _ _ _).1 hspan).2.1
    omega
  refine ⟨hu.stream, hu.symbols.append ?_ ?_ ?_, ?_, ?_, hw, .inl (by simp), ?_⟩
  · exact fun y hy => (hu.reached y hy).resolve_left (by omega)
  · exact fun hs => hu.history ▸ hg hs
  · simpa only [hstop] using hspan
  · rw [Walk.emit_last, Walk.emit_symbols, historyAfter_append]
  · have := hu.counted
    simp only [Walk.emit_symbols, Walk.emit_cursor, List.length_append, List.length_singleton]
    omega
  · intro x hx
    obtain rfl := by simpa using hx
    rcases hw.lt_or_eq with hlt | heq
    · exact .inr (hstop.trans (symbolStop_of_lt _ _ hlt))
    · exact .inl heq.ge

/-- The symbol of a window is a guard only where the history allows one (R174, R181). -/
theorem symbolOf_guard (cfg : Config) (ctx : WindowContext) (w : Window) (h : symbolOf cfg ctx w = .guard) :
    ctx.last ≠ .data := by
  unfold symbolOf at h
  split at h
  · cases h
  · split at h
    · next hc => simpa [WindowContext.guardOpen] using (Bool.and_eq_true_iff.1 hc).1
    · cases h

/-- One turn of the loop keeps the classification sound. -/
theorem WalkSound.advance {depth : Option Nat} {u : Walk} (hu : WalkSound depth u) (cfg : Config)
    (hw : u.hasWindow = true) : WalkSound depth (u.advance cfg) :=
  hu.emit hw (symbolOf_guard cfg u.context u.window)

/-- The loop keeps the classification sound. -/
theorem WalkSound.turns {depth : Option Nat} (cfg : Config) (n : Nat) {u : Walk} (hu : WalkSound depth u) :
    WalkSound depth (u.turns cfg n) := by
  induction n generalizing u with
  | zero => exact hu
  | succ n ih =>
    rw [Walk.turns]
    split
    · next hw => exact ih (hu.advance cfg hw)
    · exact hu

/-- A loop with turns enough leaves no complete window (R179). -/
theorem Walk.turns_hasWindow (cfg : Config) (n : Nat) (u : Walk) (h : u.stream.length < u.cursor + 10 + n) :
    (u.turns cfg n).hasWindow = false := by
  induction n generalizing u with
  | zero =>
    rw [Walk.turns, ← Bool.not_eq_true, Walk.hasWindow_iff]
    omega
  | succ n ih =>
    rw [Walk.turns]
    split
    · refine ih _ ?_
      simp only [Walk.advance, Walk.emit_stream, Walk.emit_cursor]
      omega
    · next hw => simpa using hw

/-- A finished walk has no complete window left (R179). -/
theorem Walk.finish_hasWindow (cfg : Config) (u : Walk) : (u.finish cfg).hasWindow = false :=
  u.turns_hasWindow cfg _ (by omega)

/-- What a sound classification leaves when no complete window is left is a sound output: one symbol at least, and no more than
a tenth of the stream's samples (R182, 60_exceptions.md R195). -/
theorem WalkSound.capture_wf {depth : Option Nat} {u : Walk} (hu : WalkSound depth u) (hw : u.hasWindow = false) :
    u.capture.wf depth = true := by
  refine (TmdsCapture.wf_iff _ _).2 ⟨hu.started.resolve_right (by simp [hw]), hu.symbols, ?_⟩
  refine withinDepth_mono ?_ hu.stream.inDepth
  have hcount := hu.counted
  have hin := hu.inside
  change u.symbols.length ≤ u.stream.length
  omega

/-! ### TMDS.REFRESH -/

/-- The walk that TMDS.REFRESH starts on the captures it gathers (R182). -/
theorem startWalk_eq_ok (s : State) (u : Walk) (h : s.startWalk = .ok u) :
    ∃ data clk, s.gather [4, 5] = .ok [data, clk] ∧ 20 ≤ (resample .any data.samples clk.samples).length ∧
      u = ⟨resample .any data.samples clk.samples, clk.header, s.lane,
        (phaseSearch s.cfg (resample .any data.samples clk.samples)).offset, .data, []⟩ := by
  unfold State.startWalk at h
  split at h
  · next data clk hg =>
    dsimp only at h
    split at h
    · cases h
    · next hlen =>
      cases h
      exact ⟨data, clk, hg, not_lt.1 hlen, rfl⟩
  · cases h
  · cases h

/-- A walk on a sound stream of the least length or more is sound at its start: every phase leaves a complete window. -/
theorem walkSound_start (depth : Option Nat) (st : List Sample) (hdr : Header) (lane : Fin 3) (phase : Fin 10)
    (hst : StreamSound depth st) (hlen : 20 ≤ st.length) :
    WalkSound depth ⟨st, hdr, lane, phase, .data, []⟩ := by
  have := phase.isLt
  refine ⟨hst, ⟨rfl, rfl, rfl⟩, rfl, Nat.zero_le _, ?_, .inr ((Walk.hasWindow_iff _).2 ?_), by simp⟩
  · change (phase : Nat) ≤ st.length
    omega
  · change (phase : Nat) + 10 ≤ st.length
    omega

/-- What TMDS.REFRESH installs from a sound storage is a sound output. -/
theorem startWalk_capture_wf (s : State) (u : Walk) (hs : s.StorageSound) (h : s.startWalk = .ok u) :
    (u.finish s.cfg).capture.wf s.cfg.depth = true := by
  obtain ⟨data, clk, hg, hlen, rfl⟩ := startWalk_eq_ok s u h
  have hst := resample_sound .any s.cfg.depth data.samples clk (hs.gather_wf hg clk (by simp))
  exact ((walkSound_start _ _ _ _ _ hst hlen).turns s.cfg _).capture_wf (Walk.finish_hasWindow s.cfg _)

/-- Every effect on a sound storage keeps `out[2]` and an open classification sound: a refresh writes the one, a window class
the other. -/
theorem Effect.tmdsSound {s t : State} {i : Instr} (h : Effect s i t) (hs : s.StorageSound) (ho : s.TmdsSound) :
    t.TmdsSound := by
  obtain ⟨hout, hwalk⟩ := ho
  cases h with
  | refreshedTmds _ v hv =>
    refine ⟨fun o e => ?_, hwalk⟩
    obtain ⟨u, hu, rfl⟩ := hv o e
    exact startWalk_capture_wf s u hs hu
  | emitted _ u sym hu hw hg =>
    refine ⟨hout, ?_⟩
    rintro _ ⟨⟩
    exact (Walk.wf_iff _ _).2 (((Walk.wf_iff _ _).1 (hwalk u hu)).emit hw hg)
  | answered | opened | pushed | dropped | bound | laned | refreshedRs | refreshedGmii => exact ⟨hout, hwalk⟩

/-- Installing a sound classification with no window left gives a sound output and closes the classification. -/
theorem tmdsSound_install (s : State) (u : Walk) (hu : s.walk = some u) (hw : u.hasWindow = false) (ho : s.TmdsSound) :
    ((s.installWalk u).putWalk none).TmdsSound := by
  constructor
  · rintro _ ⟨⟩
    exact ((Walk.wf_iff _ _).1 (ho.2 u hu)).capture_wf hw
  · rintro _ ⟨⟩

/-- Settles O59: the storage, `out[2]` and an open classification are sound together after every effect, and after the
installation of a finished classification. -/
theorem stepKeepsTheSymbolsSound : Obligations.StepKeepsTheSymbolsSound := by
  intro s t hs ho h
  refine (step_keeps (fun s => s.StorageSound ∧ s.TmdsSound) (fun _ _ hk => hk) ?_ ?_ s t ⟨hs, ho⟩ h).2
  · exact fun _ _ _ he hk => ⟨he.storageSound hk.1, he.tmdsSound hk.1 hk.2⟩
  · exact fun s u hu hw hk => ⟨hk.1, tmdsSound_install s u hu hw hk.2⟩

end Sys2Proof.Machine
end

section
/-! The two halves of the port decoder, each with its inverse: the fields of a header and the operand words of a format
(30_encoding.md R61, R62). -/

namespace Sys2Proof

/-! ### The fields of a header -/

@[simp] theorem opField_headerWord (b : BitVec 16) (a op : Octet) : opField (headerWord b a op) = op :=
  Laws.Encoding.opField_headerWord b a op

@[simp] theorem aField_headerWord (b : BitVec 16) (a op : Octet) : aField (headerWord b a op) = a := by
  have hba : aField (headerWord b a op) = (b ++ a).extractLsb' 0 8 := BitVec.extractLsb'_append_eq_of_le le_rfl
  exact hba.trans BitVec.extractLsb'_append_eq_right

@[simp] theorem bField_headerWord (b : BitVec 16) (a op : Octet) : bField (headerWord b a op) = b := by
  have hba : bField (headerWord b a op) = (b ++ a).extractLsb' 8 16 := BitVec.extractLsb'_append_eq_of_le (by decide)
  exact hba.trans BitVec.extractLsb'_append_eq_left

/-- The bytes of `b` put together are `b`. -/
@[simp] theorem bHigh_append_bLow (h : Beat) : bHigh h ++ bLow h = bField h :=
  BitVec.extractLsb'_append_extractLsb'_eq_extractLsb' rfl

/-- The high byte of `b` read from `b`. -/
theorem bHigh_eq (h : Beat) : bHigh h = (bField h).extractLsb' 8 8 := by
  rw [← bHigh_append_bLow]
  exact BitVec.extractLsb'_append_eq_left.symm

/-- The low byte of `b` read from `b`. -/
theorem bLow_eq (h : Beat) : bLow h = (bField h).extractLsb' 0 8 := by
  rw [← bHigh_append_bLow]
  exact BitVec.extractLsb'_append_eq_right.symm

@[simp] theorem bHigh_headerWord (hi lo a op : Octet) : bHigh (headerWord (hi ++ lo) a op) = hi := by
  rw [bHigh_eq, bField_headerWord]
  exact BitVec.extractLsb'_append_eq_left

@[simp] theorem bLow_headerWord (hi lo a op : Octet) : bLow (headerWord (hi ++ lo) a op) = lo := by
  rw [bLow_eq, bField_headerWord]
  exact BitVec.extractLsb'_append_eq_right

/-- A header is its three fields and nothing else. -/
theorem headerWord_fields (h : Beat) : headerWord (bField h) (aField h) (opField h) = h := by
  have hba : bField h ++ aField h = h.extractLsb' 8 24 := BitVec.extractLsb'_append_extractLsb'_eq_extractLsb' rfl
  rw [headerWord, hba]
  exact BitVec.extractLsb'_append_extractLsb'

/-- The header made of given fields is `h` when `h` has these fields. -/
theorem headerWord_eq_iff (h : Beat) (b : BitVec 16) (a op : Octet) :
    headerWord b a op = h ↔ b = bField h ∧ a = aField h ∧ op = opField h := by
  constructor
  · rintro rfl
    simp
  · rintro ⟨rfl, rfl, rfl⟩
    exact headerWord_fields h

/-- Every header is put together from four bytes. -/
theorem exists_headerWord (h : Beat) : ∃ hi lo a op : Octet, h = headerWord (hi ++ lo) a op :=
  ⟨bHigh h, bLow h, aField h, opField h, by rw [bHigh_append_bLow, headerWord_fields]⟩

/-- Masking a header masks its fields. -/
theorem headerWord_and (b b' : BitVec 16) (a a' op op' : Octet) :
    headerWord b a op &&& headerWord b' a' op' = headerWord (b &&& b') (a &&& a') (op &&& op') :=
  BitVec.and_append.trans (congrArg (· ++ (op &&& op')) BitVec.and_append)

/-- A masked header matches when each masked field does (R62). -/
theorem and_headerWord_eq_iff (h : Beat) (mb b : BitVec 16) (ma a mop op : Octet) :
    h &&& headerWord mb ma mop = headerWord b a op ↔ bField h &&& mb = b ∧ aField h &&& ma = a ∧ opField h &&& mop = op := by
  conv_lhs => rw [← headerWord_fields h, headerWord_and, headerWord_eq_iff]
  simp

/-! ### Operand words -/

/-- A word is the join of its two beats. -/
@[simp] theorem joinBeats_halves (p : PortWord) : joinBeats (p.extractLsb' 0 32) (p.extractLsb' 32 32) = p :=
  BitVec.extractLsb'_append_extractLsb'

/-- The beats of a joined word are the two it was joined from. -/
@[simp] theorem wordBeats_joinBeats (lo hi : Beat) : wordBeats (joinBeats lo hi) = [lo, hi] := by
  simp only [wordBeats, joinBeats, List.cons.injEq, and_true]
  exact ⟨BitVec.extractLsb'_append_eq_right, BitVec.extractLsb'_append_eq_left⟩

/-- The beats of the operand words that a format has. -/
def operandBeats : Format → OperandWords → List Beat
  | .N, _ => []
  | .P1, p => wordBeats p.p0
  | .P2, p => wordBeats p.p0 ++ wordBeats p.p1
  | .P3, p => wordBeats p.p0 ++ wordBeats p.p1 ++ wordBeats p.p2

/-- The words taken are those whose beats stood there. -/
theorem eq_operandBeats_of_takeOperands (f : Format) (beats rest : List Beat) (p : OperandWords)
    (h : takeOperands f beats = some (p, rest)) : beats = operandBeats f p ++ rest := by
  unfold takeOperands at h
  split at h <;> cases h <;> simp [operandBeats]

@[simp] theorem takeOperands_N (rest : List Beat) : takeOperands .N rest = some (⟨0, 0, 0⟩, rest) := rfl

@[simp] theorem takeOperands_P1 (a : PortWord) (rest : List Beat) :
    takeOperands .P1 (wordBeats a ++ rest) = some (⟨a, 0, 0⟩, rest) := by
  simp [wordBeats, takeOperands]

@[simp] theorem takeOperands_P2 (a b : PortWord) (rest : List Beat) :
    takeOperands .P2 (wordBeats a ++ (wordBeats b ++ rest)) = some (⟨a, b, 0⟩, rest) := by
  simp [wordBeats, takeOperands]

@[simp] theorem takeOperands_P3 (a b c : PortWord) (rest : List Beat) :
    takeOperands .P3 (wordBeats a ++ (wordBeats b ++ (wordBeats c ++ rest))) = some (⟨a, b, c⟩, rest) := by
  simp [wordBeats, takeOperands]

/-- Two beats for each word of the format are enough, whatever they hold. -/
theorem takeOperands_of_length (f : Format) (words rest : List Beat) (h : words.length = 2 * f.operandWords) :
    ∃ p, takeOperands f (words ++ rest) = some (p, rest) := by
  cases f with
  | N =>
    obtain rfl := List.eq_nil_of_length_eq_zero h
    exact ⟨_, rfl⟩
  | P1 => match words, h with | [_, _], _ => exact ⟨_, rfl⟩
  | P2 => match words, h with | [_, _, _, _], _ => exact ⟨_, rfl⟩
  | P3 => match words, h with | [_, _, _, _, _, _], _ => exact ⟨_, rfl⟩

/-! ### The two halves together -/

/-- A legal header with its operand words is read as its command. -/
theorem decode_of_ok {h : Beat} {beats rest : List Beat} {p : OperandWords} {i : Instr}
    (hp : takeOperands (formatOf (opField h)) beats = some (p, rest)) (hi : decodeCommand h p = .ok i) :
    decode (h :: beats) = .instr i rest := by
  simp only [decode, hp, hi]

/-- An illegal header is read as such when its operand words stand there. -/
theorem decode_of_error {h : Beat} {beats rest : List Beat} {p : OperandWords} {e : DecodeError}
    (hp : takeOperands (formatOf (opField h)) beats = some (p, rest)) (he : decodeCommand h p = .error e) :
    decode (h :: beats) = .illegal e rest := by
  simp only [decode, hp, he]

/-- A command read from the port is a legal header, the beats of its operand words, and what is left. -/
theorem decode_eq_instr (beats rest : List Beat) (i : Instr) (hd : decode beats = .instr i rest) :
    ∃ h p, beats = h :: (operandBeats (formatOf (opField h)) p ++ rest) ∧ decodeCommand h p = .ok i := by
  unfold decode at hd
  split at hd
  · cases hd
  · split at hd
    · cases hd
    · next h tail _ p rest' hp =>
      split at hd
      · next hc =>
        cases hd
        exact ⟨h, p, by rw [eq_operandBeats_of_takeOperands _ _ _ _ hp], hc⟩
      · cases hd

/-- A command is accepted with its reserved fields as its row asks, and only then. -/
@[simp] theorem whenReserved_eq_ok (ok : Bool) (i j : Instr) : whenReserved ok i = .ok j ↔ ok = true ∧ i = j := by
  cases ok <;> simp [whenReserved]

end Sys2Proof
end


section
/-! Commands: the rows of the opcode map, and decode and encode as inverses of each other (30_encoding.md R61 to R63). -/

namespace Sys2Proof

open Machine

/-- The rows of the opcode map (R62, R63): header, operand words, command. `decodeCommand_eq_ok` and `encode_of_row` tie it
to the decoder and the encoder. -/
inductive CommandRow : Beat → OperandWords → Instr → Prop where
  | chOpen (ch kind width : Octet) (p : OperandWords) :
      CommandRow (headerWord (width ++ kind) ch 0x01) p (.chOpen ch kind width p.p0 p.p1 p.p2)
  | chPush (ch : Octet) (p : OperandWords) : CommandRow (headerWord 0 ch 0x02) p (.chPush ch p.p0 p.p1 p.p2)
  | chDrop (ch : Octet) (p : OperandWords) : CommandRow (headerWord 0 ch 0x03) p (.chDrop ch)
  | chStat (ch : Octet) (p : OperandWords) : CommandRow (headerWord 0 ch 0x04) p (.chStat ch)
  | chRd (ch : Octet) (p : OperandWords) : CommandRow (headerWord 0 ch 0x05) p (.chRd ch p.p0)
  | bind (slot ch : Octet) (p : OperandWords) : CommandRow (headerWord (0#8 ++ ch) slot 0x10) p (.bind slot ch)
  | unbind (slot : Octet) (p : OperandWords) : CommandRow (headerWord 0 slot 0x11) p (.unbind slot)
  | bindGet (slot : Octet) (p : OperandWords) : CommandRow (headerWord 0 slot 0x12) p (.bindGet slot)
  | laneSet (v : BitVec 16) (p : OperandWords) : CommandRow (headerWord v 0 0x13) p (.laneSet v)
  | laneGet (p : OperandWords) : CommandRow (headerWord 0 0 0x14) p .laneGet
  | rsRise (p : OperandWords) : CommandRow (headerWord 0 0 0x20) p .rsRise
  | rsAny (p : OperandWords) : CommandRow (headerWord 1 0 0x20) p .rsAny
  | gmiiRefresh (p : OperandWords) : CommandRow (headerWord 0 0 0x21) p .gmiiRefresh
  | tmdsRefresh (p : OperandWords) : CommandRow (headerWord 0 0 0x22) p .tmdsRefresh
  | outStat (unit : Octet) (p : OperandWords) : CommandRow (headerWord 0 unit 0x30) p (.outStat unit)
  | outRd (unit : Octet) (p : OperandWords) : CommandRow (headerWord 0 unit 0x31) p (.outRd unit p.p0)
  | outByte (p : OperandWords) : CommandRow (headerWord 0 1 0x32) p (.outByte p.p0 p.p1)

/-- The decoder reads every row as its command. -/
theorem CommandRow.decodeCommand_eq {h : Beat} {p : OperandWords} {i : Instr} (row : CommandRow h p i) :
    decodeCommand h p = .ok i := by
  cases row <;> simp [decodeCommand, whenReserved]

/-- The octet that holds a number. -/
theorem octet_eq_ofNat {op : Octet} {n : Nat} (h : op.toNat = n) : op = BitVec.ofNat 8 n := by
  simp [← h]

/-- What the decoder accepts is a row: the opcode picks the row, and the reserved fields are what the row asks. -/
theorem commandRow_of_decodeCommand {h : Beat} {p : OperandWords} {i : Instr} (hd : decodeCommand h p = .ok i) :
    CommandRow h p i := by
  obtain ⟨hi, lo, a, op, rfl⟩ := exists_headerWord h
  simp only [decodeCommand, opField_headerWord, aField_headerWord, bField_headerWord, bHigh_headerWord,
    bLow_headerWord] at hd
  split at hd
  case h_17 => cases hd
  all_goals
    rename_i hop
    obtain rfl := octet_eq_ofNat hop
    simp only [whenReserved_eq_ok, beq_iff_eq, Bool.and_eq_true, Bool.or_eq_true, Except.ok.injEq] at hd
  case h_1 =>
    subst hd
    exact .chOpen a lo hi p
  case h_2 =>
    obtain ⟨hb, rfl⟩ := hd
    exact hb ▸ .chPush a p
  case h_3 =>
    obtain ⟨hb, rfl⟩ := hd
    exact hb ▸ .chDrop a p
  case h_4 =>
    obtain ⟨hb, rfl⟩ := hd
    exact hb ▸ .chStat a p
  case h_5 =>
    obtain ⟨hb, rfl⟩ := hd
    exact hb ▸ .chRd a p
  case h_6 =>
    obtain ⟨rfl, rfl⟩ := hd
    exact .bind a lo p
  case h_7 =>
    obtain ⟨hb, rfl⟩ := hd
    exact hb ▸ .unbind a p
  case h_8 =>
    obtain ⟨hb, rfl⟩ := hd
    exact hb ▸ .bindGet a p
  case h_9 =>
    obtain ⟨rfl, rfl⟩ := hd
    exact .laneSet (hi ++ lo) p
  case h_10 =>
    obtain ⟨⟨rfl, hb⟩, rfl⟩ := hd
    exact hb ▸ .laneGet p
  case h_11 =>
    obtain ⟨⟨rfl, hb | hb⟩, rfl⟩ := hd <;> rw [hb]
    · exact .rsRise p
    · exact .rsAny p
  case h_12 =>
    obtain ⟨⟨rfl, hb⟩, rfl⟩ := hd
    exact hb ▸ .gmiiRefresh p
  case h_13 =>
    obtain ⟨⟨rfl, hb⟩, rfl⟩ := hd
    exact hb ▸ .tmdsRefresh p
  case h_14 =>
    obtain ⟨hb, rfl⟩ := hd
    exact hb ▸ .outStat a p
  case h_15 =>
    obtain ⟨hb, rfl⟩ := hd
    exact hb ▸ .outRd a p
  case h_16 =>
    obtain ⟨⟨rfl, hb⟩, rfl⟩ := hd
    exact hb ▸ .outByte p

/-- The decoder accepts exactly the rows. -/
theorem decodeCommand_eq_ok (h : Beat) (p : OperandWords) (i : Instr) : decodeCommand h p = .ok i ↔ CommandRow h p i :=
  ⟨commandRow_of_decodeCommand, CommandRow.decodeCommand_eq⟩

/-- The encoder writes the command of a row as its header and the operand words of its format. -/
theorem CommandRow.encode_eq {h : Beat} {p : OperandWords} {i : Instr} (row : CommandRow h p i) (cfg : Config) :
    encode cfg i = .command (h :: operandBeats (formatOf (opField h)) p) := by
  cases row <;> simp [encode, formatOf, operandBeats]

/-- Settles O2: what the decoder takes from the port is a row's header and operand words, and the encoder writes the same. -/
theorem decodedCommandsReencode : Obligations.DecodedCommandsReencode := by
  intro cfg beats rest i hd
  obtain ⟨h, p, rfl, hi⟩ := decode_eq_instr beats rest i hd
  exact ⟨_, (commandRow_of_decodeCommand hi).encode_eq cfg, rfl⟩

/-- The beats of a row are read as its command. -/
theorem CommandRow.decode_eq {b : BitVec 16} {a op : Octet} {beats rest : List Beat} {p : OperandWords} {i : Instr}
    (row : CommandRow (headerWord b a op) p i) (hp : takeOperands (formatOf op) beats = some (p, rest)) :
    decode (headerWord b a op :: beats) = .instr i rest :=
  decode_of_ok (by rwa [opField_headerWord]) row.decodeCommand_eq

/-- Settles O1: each command is written as its row of the opcode map, and the words of its format are read back as they were
written. -/
theorem encodedCommandsDecodeToThemselves : Obligations.EncodedCommandsDecodeToThemselves := by
  intro cfg i beats rest h
  cases i <;> cases h
  case chOpen ch kind width ts st ss =>
    exact (CommandRow.chOpen ch kind width ⟨ts, st, ss⟩).decode_eq (takeOperands_P3 ts st ss rest)
  case chPush ch o d v => exact (CommandRow.chPush ch ⟨o, d, v⟩).decode_eq (takeOperands_P3 o d v rest)
  case chRd ch idx => exact (CommandRow.chRd ch ⟨idx, 0, 0⟩).decode_eq (takeOperands_P1 idx rest)
  case outRd unit idx => exact (CommandRow.outRd unit ⟨idx, 0, 0⟩).decode_eq (takeOperands_P1 idx rest)
  case outByte f k => exact (CommandRow.outByte ⟨f, k, 0⟩).decode_eq (takeOperands_P2 f k rest)
  case chDrop ch => exact (CommandRow.chDrop ch _).decode_eq (takeOperands_N rest)
  case chStat ch => exact (CommandRow.chStat ch _).decode_eq (takeOperands_N rest)
  case bind slot ch => exact (CommandRow.bind slot ch _).decode_eq (takeOperands_N rest)
  case unbind slot => exact (CommandRow.unbind slot _).decode_eq (takeOperands_N rest)
  case bindGet slot => exact (CommandRow.bindGet slot _).decode_eq (takeOperands_N rest)
  case laneSet v => exact (CommandRow.laneSet v _).decode_eq (takeOperands_N rest)
  case laneGet => exact (CommandRow.laneGet _).decode_eq (takeOperands_N rest)
  case rsRise => exact (CommandRow.rsRise _).decode_eq (takeOperands_N rest)
  case rsAny => exact (CommandRow.rsAny _).decode_eq (takeOperands_N rest)
  case gmiiRefresh => exact (CommandRow.gmiiRefresh _).decode_eq (takeOperands_N rest)
  case tmdsRefresh => exact (CommandRow.tmdsRefresh _).decode_eq (takeOperands_N rest)
  case outStat unit => exact (CommandRow.outStat unit _).decode_eq (takeOperands_N rest)

/-! ### The masks of the opcode map -/

/-- The rows of the opcode map, mask and match put together from fields. -/
theorem opcodeRows_eq : opcodeRows =
    [(headerWord 0 0 0xFF, headerWord 0 0 0x01), (headerWord 0xFFFF 0 0xFF, headerWord 0 0 0x02),
     (headerWord 0xFFFF 0 0xFF, headerWord 0 0 0x03), (headerWord 0xFFFF 0 0xFF, headerWord 0 0 0x04),
     (headerWord 0xFFFF 0 0xFF, headerWord 0 0 0x05), (headerWord 0xFF00 0 0xFF, headerWord 0 0 0x10),
     (headerWord 0xFFFF 0 0xFF, headerWord 0 0 0x11), (headerWord 0xFFFF 0 0xFF, headerWord 0 0 0x12),
     (headerWord 0 0xFF 0xFF, headerWord 0 0 0x13), (headerWord 0xFFFF 0xFF 0xFF, headerWord 0 0 0x14),
     (headerWord 0xFFFF 0xFF 0xFF, headerWord 0 0 0x20), (headerWord 0xFFFF 0xFF 0xFF, headerWord 1 0 0x20),
     (headerWord 0xFFFF 0xFF 0xFF, headerWord 0 0 0x21), (headerWord 0xFFFF 0xFF 0xFF, headerWord 0 0 0x22),
     (headerWord 0xFFFF 0 0xFF, headerWord 0 0 0x30), (headerWord 0xFFFF 0 0xFF, headerWord 0 0 0x31),
     (headerWord 0xFFFF 0xFF 0xFF, headerWord 0 1 0x32)] := rfl

/-- The mask of BIND on `b` picks its high byte. -/
theorem append_and_high_eq_zero (hi lo : Octet) : (hi ++ lo : BitVec 16) &&& 0xFF00#16 = 0#16 ↔ hi = 0#8 := by
  have hmask : (hi ++ lo) &&& (BitVec.allOnes 8 ++ 0#8) = (hi &&& BitVec.allOnes 8) ++ (lo &&& 0#8) := BitVec.and_append
  have hzero : (hi ++ 0#8 = 0#8 ++ 0#8) ↔ hi = 0#8 := BitVec.append_left_inj _
  rw [BitVec.and_allOnes, BitVec.and_zero] at hmask
  rw [← hzero, ← hmask]
  rfl

/-- A header that matches a row of the opcode map is legal: its opcode picks the arm, its reserved fields are as asked. -/
theorem decodeCommand_ok_of_match (h : Beat) (p : OperandWords) {row : Beat × Beat} (hrow : row ∈ opcodeRows)
    (hmatch : h &&& row.1 = row.2) : ∃ i, decodeCommand h p = .ok i := by
  have hones8 (x : Octet) : x &&& 0xFF#8 = x := BitVec.and_allOnes
  have hones16 (x : BitVec 16) : x &&& 0xFFFF#16 = x := BitVec.and_allOnes
  obtain ⟨hi, lo, a, op, rfl⟩ := exists_headerWord h
  rw [opcodeRows_eq] at hrow
  simp only [List.mem_cons, List.not_mem_nil, or_false] at hrow
  rcases hrow with rfl | rfl | rfl | rfl | rfl | rfl | rfl | rfl | rfl | rfl | rfl | rfl | rfl | rfl | rfl | rfl | rfl
  all_goals
    simp [and_headerWord_eq_iff, hones8, hones16, append_and_high_eq_zero] at hmatch
    simp [decodeCommand, whenReserved, hmatch]

/-- The header of a command's row matches one of the seventeen masks. -/
theorem CommandRow.matches_mask {h : Beat} {p : OperandWords} {i : Instr} (row : CommandRow h p i) :
    ∃ row ∈ opcodeRows, h &&& row.1 = row.2 := by
  rw [opcodeRows_eq]
  cases row <;> simp [and_headerWord_eq_iff, append_and_high_eq_zero]

/-- Settles O3: an accepted header is that of a command's row, which matches its mask, and a match gives the fields the decoder
asks for. -/
theorem headerIsLegalExactlyWhenARowMatches : Obligations.HeaderIsLegalExactlyWhenARowMatches := by
  intro h p
  constructor
  · rintro ⟨i, hi⟩
    exact (commandRow_of_decodeCommand hi).matches_mask
  · rintro ⟨row, hrow, hmatch⟩
    exact decodeCommand_ok_of_match h p hrow hmatch

/-! ### Illegal headers -/

/-- A header that matches no row is rejected by the decoder. -/
theorem decodeCommand_error_of_no_match (h : Beat) (p : OperandWords) (hno : ∀ row ∈ opcodeRows, h &&& row.1 ≠ row.2) :
    ∃ e, decodeCommand h p = .error e := by
  cases hd : decodeCommand h p with
  | error e => exact ⟨e, rfl⟩
  | ok i =>
    obtain ⟨row, hrow, hmatch⟩ := (headerIsLegalExactlyWhenARowMatches h p).1 ⟨i, hd⟩
    exact absurd hmatch (hno row hrow)

/-- An opcode with operand words is in a row of the opcode map. -/
theorem opcode_in_row_of_formatOf (op : Octet) (h : formatOf op ≠ .N) :
    ∃ row ∈ opcodeRows, row.2.extractLsb' 0 8 = op := by
  unfold formatOf at h
  split at h
  case h_6 => exact absurd rfl h
  all_goals
    rename_i hop
    obtain rfl := octet_eq_ofNat hop
    decide

end Sys2Proof
end

section
/-! The step: what it finds on the port and in an open classification (30_encoding.md R61, R67, 45_tmds_classify.md R179). -/

namespace Sys2Proof.Machine

/-- With a command at the head of a free port, a step runs it after its words are taken. -/
theorem step_of_instr {s : State} {i : Instr} {rest : List Beat} (hw : s.walk = none)
    (hd : decode s.portIn = .instr i rest) : step s = exec i (s.putPort rest) := by
  rw [step, fetch_closed s hw, fetchCommand, hd]

/-- With an illegal header at the head of a free port, a step takes its words and rejects it. -/
theorem step_of_illegal {s : State} {e : DecodeError} {rest : List Beat} (hw : s.walk = none)
    (hd : decode s.portIn = .illegal e rest) : step s = .next (s.putPort rest).reject := by
  rw [step, fetch_closed s hw, fetchCommand, hd]

/-- With a complete window in an open classification, a step runs its class. -/
theorem step_of_window {s : State} {u : Walk} (hu : s.walk = some u) (hw : u.hasWindow = true) :
    step s = exec (decodeWindow s.cfg u.context u.window) s := by
  rw [step, fetch_open s u hu, fetchWindow, if_pos hw]

/-- Settles O7. -/
theorem stepRunsTheDecodedInstruction : Obligations.StepRunsTheDecodedInstruction :=
  ⟨fun _ _ _ hw hd => step_of_instr hw hd, fun _ u hu hw => step_of_window hu (u.hasWindow_iff.2 hw)⟩

/-- Settles O8: the operand words are taken whatever they hold, and a header that matches no row is no command. -/
theorem illegalHeadersAreRejected : Obligations.IllegalHeadersAreRejected := by
  refine ⟨fun s h words rest hw hport hlen hno => ?_, fun op hno => ?_⟩
  · obtain ⟨p, hp⟩ := takeOperands_of_length (formatOf (opField h)) words rest hlen
    obtain ⟨e, he⟩ := decodeCommand_error_of_no_match h p hno
    exact step_of_illegal hw (hport ▸ decode_of_error hp he)
  · by_contra hf
    obtain ⟨row, hrow, hop⟩ := opcode_in_row_of_formatOf op hf
    exact hno row hrow hop

/-- Settles O6. -/
theorem vectorWordsDecodeAsTheSpecSays : Obligations.VectorWordsDecodeAsTheSpecSays := by
  unfold Obligations.VectorWordsDecodeAsTheSpecSays
  decide

end Sys2Proof.Machine
end

section
/-! Windows: the classes of the decode map, when each is read, and decode and encode as inverses (30_encoding.md R72 to R77). -/

namespace Sys2Proof

/-! ### The three families of classes -/

@[simp] theorem encode_controlInstr (cfg : Config) (j : Fin 4) : encode cfg (controlInstr j) = .window cfg.ctrl[j] := by
  fin_cases j <;> rfl

@[simp] theorem wellFormed_controlInstr (cfg : Config) (ctx : WindowContext) (j : Fin 4) :
    wellFormed cfg ctx (controlInstr j) = controlIsFirst cfg j := by
  fin_cases j <;> rfl

@[simp] theorem encode_guardInstr (cfg : Config) (l : Fin 3) : encode cfg (guardInstr l) = .window cfg.guard[l] := by
  fin_cases l <;> rfl

@[simp] theorem wellFormed_guardInstr (cfg : Config) (ctx : WindowContext) (l : Fin 3) :
    wellFormed cfg ctx (guardInstr l) = guardReachable cfg ctx l := by
  fin_cases l <;> rfl

/-- A window is its bits `d9`, `d8` and its field `d` (R72). -/
theorem dataWindow_fields (w : Window) : dataWindow (w.getLsbD 9) (w.getLsbD 8) (dField w) = w := by
  have h8 : BitVec.ofBool (w.getLsbD 8) = w.extractLsb' 8 1 := by
    ext i hi
    obtain rfl : i = 0 := by omega
    simp
  have h9 : BitVec.ofBool (w.getLsbD 9) = w.extractLsb' 9 1 := by
    ext i hi
    obtain rfl : i = 0 := by omega
    simp
  have h98 : w.extractLsb' 9 1 ++ w.extractLsb' 8 1 = w.extractLsb' 8 2 :=
    BitVec.extractLsb'_append_extractLsb'_eq_extractLsb' rfl
  rw [dataWindow, h8, h9, h98]
  exact BitVec.extractLsb'_append_extractLsb'

@[simp] theorem dataWindow_d9 (d9 d8 : Bool) (d : Octet) : (dataWindow d9 d8 d).getLsbD 9 = d9 := by
  rw [dataWindow, BitVec.getLsbD_append, BitVec.getLsbD_append]
  simp

@[simp] theorem dataWindow_d8 (d9 d8 : Bool) (d : Octet) : (dataWindow d9 d8 d).getLsbD 8 = d8 := by
  rw [dataWindow, BitVec.getLsbD_append, BitVec.getLsbD_append]
  simp

@[simp] theorem dField_dataWindow (d9 d8 : Bool) (d : Octet) : dField (dataWindow d9 d8 d) = d :=
  BitVec.extractLsb'_append_eq_right

theorem encode_dataInstr (cfg : Config) (w : Window) : encode cfg (dataInstr w) = .window w := by
  conv_rhs => rw [← dataWindow_fields w]
  unfold dataInstr
  split <;> simp_all [encode]

theorem wellFormed_dataInstr (cfg : Config) (ctx : WindowContext) (w : Window) :
    wellFormed cfg ctx (dataInstr w) = dataReachable cfg ctx w := by
  conv_rhs => rw [← dataWindow_fields w]
  unfold dataInstr
  split <;> simp_all [wellFormed]

/-- An instruction that is written as a window is of one of the three families. -/
theorem window_families (cfg : Config) (i : Instr) (w : Window) (h : encode cfg i = .window w) :
    (∃ j, i = controlInstr j) ∨ (∃ l, i = guardInstr l) ∨ i = dataInstr w := by
  cases i <;> cases h
  case control0 => exact .inl ⟨0, rfl⟩
  case control1 => exact .inl ⟨1, rfl⟩
  case control2 => exact .inl ⟨2, rfl⟩
  case control3 => exact .inl ⟨3, rfl⟩
  case guardLane0 => exact .inr (.inl ⟨0, rfl⟩)
  case guardLane1 => exact .inr (.inl ⟨1, rfl⟩)
  case guardLane2 => exact .inr (.inl ⟨2, rfl⟩)
  all_goals exact .inr (.inr (by simp only [dataInstr, dataWindow_d9, dataWindow_d8, dField_dataWindow]))

/-! ### When each arm of the decode map is taken -/

/-- The control table as a list of its four entries. -/
theorem ctrl_toList (cfg : Config) : cfg.ctrl.toList = [cfg.ctrl[0], cfg.ctrl[1], cfg.ctrl[2], cfg.ctrl[3]] := by
  obtain ⟨⟨⟨codes⟩, hlen⟩, guard, depth⟩ := cfg
  match codes, hlen with
  | [_, _, _, _], _ => rfl

/-- No control code is the window: the control arm is passed. -/
theorem controlIndex_eq_none (cfg : Config) (w : Window) : controlIndex cfg w = none ↔ notControl cfg w = true := by
  unfold controlIndex notControl
  rw [ctrl_toList]
  split_ifs <;> simp_all

/-- The index of a control window is the first entry of the table with its value (R77). -/
theorem controlIndex_eq_some (cfg : Config) (w : Window) (j : Fin 4) :
    controlIndex cfg w = some j ↔ w = cfg.ctrl[j] ∧ controlIsFirst cfg j = true := by
  unfold controlIndex controlIsFirst
  rw [ctrl_toList]
  constructor
  · intro h
    split_ifs at h with h0 h1 h2 h3 <;> cases h
    · exact ⟨h0, by simp⟩
    · exact ⟨h1, by simp [← h1, h0]⟩
    · exact ⟨h2, by simp [← h2, h0, h1]⟩
    · exact ⟨h3, by simp [← h3, h0, h1, h2]⟩
  · rintro ⟨rfl, hfirst⟩
    fin_cases j <;> simp_all

/-- The decode map: each arm with the condition under which it is taken. -/
theorem decodeWindow_cases (cfg : Config) (ctx : WindowContext) (w : Window) :
    (∃ j, decodeWindow cfg ctx w = controlInstr j ∧ w = cfg.ctrl[j] ∧ controlIsFirst cfg j = true) ∨
    (decodeWindow cfg ctx w = guardInstr ctx.lane ∧ w = cfg.guard[ctx.lane] ∧ guardReachable cfg ctx ctx.lane = true) ∨
    (decodeWindow cfg ctx w = dataInstr w ∧ dataReachable cfg ctx w = true) := by
  unfold decodeWindow
  split
  · next j hj =>
    obtain ⟨hw, hfirst⟩ := (controlIndex_eq_some cfg w j).1 hj
    exact .inl ⟨j, rfl, hw, hfirst⟩
  · next hnone =>
    rw [controlIndex_eq_none] at hnone
    split
    · next hg =>
      obtain ⟨hopen, hw⟩ : ctx.guardOpen = true ∧ w = cfg.guard[ctx.lane] := by simpa using hg
      refine .inr (.inl ⟨rfl, hw, ?_⟩)
      subst hw
      simp [guardReachable, hopen, hnone, -Fin.getElem_fin]
    · next hg => 
      refine .inr (.inr ⟨rfl, ?_⟩)
      rw [dataReachable, hnone, eq_false_of_ne_true hg]
      rfl

/-- A control window is read as the first index of its code, in any context. -/
theorem decodeWindow_ctrl (cfg : Config) (ctx : WindowContext) (j : Fin 4) (h : controlIsFirst cfg j = true) :
    decodeWindow cfg ctx cfg.ctrl[j] = controlInstr j := by
  simp only [decodeWindow, (controlIndex_eq_some cfg _ j).2 ⟨rfl, h⟩]

/-- A guard pattern is read as the guard of its lane where the guard arm is reachable. -/
theorem decodeWindow_guard (cfg : Config) (ctx : WindowContext) (l : Fin 3) (h : guardReachable cfg ctx l = true) :
    decodeWindow cfg ctx cfg.guard[l] = guardInstr l := by
  obtain ⟨⟨rfl, hopen⟩, hctrl⟩ : (ctx.lane = l ∧ ctx.guardOpen = true) ∧ notControl cfg cfg.guard[l] = true := by
    simpa [guardReachable] using h
  simp [decodeWindow, (controlIndex_eq_none cfg _).2 hctrl, hopen, -Fin.getElem_fin]

/-- A window that neither earlier arm takes is read as data. -/
theorem decodeWindow_data (cfg : Config) (ctx : WindowContext) (w : Window) (h : dataReachable cfg ctx w = true) :
    decodeWindow cfg ctx w = dataInstr w := by
  obtain ⟨hctrl, hguard⟩ : notControl cfg w = true ∧ (ctx.guardOpen && w == cfg.guard[ctx.lane]) = false := by
    rwa [dataReachable, Bool.and_eq_true, Bool.not_eq_true'] at h
  simp only [decodeWindow, (controlIndex_eq_none cfg w).2 hctrl, hguard, Bool.false_eq_true, if_false]

/-! ### Decode and encode -/

/-- Settles O4: a well-formed class of each family meets the condition of its arm. -/
theorem wellFormedWindowsDecodeToThemselves : Obligations.WellFormedWindowsDecodeToThemselves := by
  intro cfg ctx i w he hwf
  rcases window_families cfg i w he with ⟨j, rfl⟩ | ⟨l, rfl⟩ | rfl
  · rw [encode_controlInstr] at he
    cases he
    exact decodeWindow_ctrl cfg ctx j (wellFormed_controlInstr cfg ctx j ▸ hwf)
  · rw [encode_guardInstr] at he
    cases he
    exact decodeWindow_guard cfg ctx l (wellFormed_guardInstr cfg ctx l ▸ hwf)
  · exact decodeWindow_data cfg ctx w (wellFormed_dataInstr cfg ctx w ▸ hwf)

/-- Settles O5: each arm of the decode map gives a class whose window it is, under the condition of well-formedness. -/
theorem everyWindowDecodesToAWellFormedClass : Obligations.EveryWindowDecodesToAWellFormedClass := by
  intro cfg ctx w
  rcases decodeWindow_cases cfg ctx w with ⟨j, hd, rfl, hfirst⟩ | ⟨hd, rfl, hreach⟩ | ⟨hd, hreach⟩
  · rw [hd, encode_controlInstr, wellFormed_controlInstr]
    exact ⟨rfl, hfirst⟩
  · rw [hd, encode_guardInstr, wellFormed_guardInstr]
    exact ⟨rfl, hreach⟩
  · rw [hd, encode_dataInstr, wellFormed_dataInstr]
    exact ⟨rfl, hreach⟩

end Sys2Proof
end

section
/-! Answers: every command answers `OK` with at most five data words or rejects, and a refresh never rejects (30_encoding.md
R60, R66). -/

namespace Sys2Proof.Machine

/-- All that a command which is no refresh can answer in a state: a rejection that leaves the state as it was, or `OK` with at
most five data words after some change. -/
inductive Answers (s : State) : Result → Prop where
  | rejected : Answers s (.next s.reject)
  | ok (t : State) (ws : List PortWord) (hlen : ws.length ≤ 5) : Answers s (.next (t.ok ws))

theorem execChOpen_answers (ch kind width : Octet) (ts st ss : PortWord) (s : State) :
    Answers s (execChOpen ch kind width ts st ss s) := by
  unfold execChOpen
  split
  · exact .ok _ [] (by simp)
  · exact .rejected

theorem execChPush_answers (ch : Octet) (o d v : PortWord) (s : State) : Answers s (execChPush ch o d v s) := by
  unfold execChPush
  split
  · exact .rejected
  · split
    · exact .rejected
    · split
      · exact .ok _ [] (by simp)
      · exact .rejected

theorem execChDrop_answers (ch : Octet) (s : State) : Answers s (execChDrop ch s) := by
  unfold execChDrop
  split
  · exact .rejected
  · exact .ok _ [] (by simp)

theorem execChStat_answers (ch : Octet) (s : State) : Answers s (execChStat ch s) := by
  unfold execChStat
  split
  · exact .rejected
  · exact .ok _ _ (by simp)

theorem execChRd_answers (ch : Octet) (idx : PortWord) (s : State) : Answers s (execChRd ch idx s) := by
  unfold execChRd
  split
  · exact .rejected
  · split
    · exact .rejected
    · exact .ok _ _ (by simp [sampleWords])

theorem execBind_answers (slot ch : Octet) (s : State) : Answers s (execBind slot ch s) := by
  unfold execBind
  split
  · split
    · exact .rejected
    · split
      · exact .ok _ [] (by simp)
      · exact .rejected
  · exact .rejected

theorem execUnbind_answers (slot : Octet) (s : State) : Answers s (execUnbind slot s) := by
  unfold execUnbind
  split
  · exact .rejected
  · exact .ok _ [] (by simp)

theorem execBindGet_answers (slot : Octet) (s : State) : Answers s (execBindGet slot s) := by
  unfold execBindGet
  split
  · exact .rejected
  · exact .ok _ _ (by simp)

theorem execLaneSet_answers (v : BitVec 16) (s : State) : Answers s (execLaneSet v s) := by
  unfold execLaneSet
  split
  · exact .rejected
  · exact .ok _ [] (by simp)

theorem execOutStat_answers (unit : Octet) (s : State) : Answers s (execOutStat unit s) := by
  unfold execOutStat
  split
  · exact .rejected
  · exact .ok _ _ (by simp)

theorem execOutRd_answers (unit : Octet) (idx : PortWord) (s : State) : Answers s (execOutRd unit idx s) := by
  unfold execOutRd
  split
  · exact .rejected
  · split
    · exact .rejected
    · next hws => exact .ok _ _ (by simp [outEntry_length _ _ _ _ hws])

theorem execOutByte_answers (f k : PortWord) (s : State) : Answers s (execOutByte f k s) := by
  unfold execOutByte
  split
  · exact .rejected
  · exact .ok _ _ (by simp)

/-- A command that is no refresh answers `OK` or rejects. -/
theorem exec_answers (i : Instr) (s : State) (hc : isCommand i = true) (hr : isRefresh i = false) : Answers s (exec i s) := by
  cases i with
  | chOpen => exact execChOpen_answers ..
  | chPush => exact execChPush_answers ..
  | chDrop => exact execChDrop_answers ..
  | chStat => exact execChStat_answers ..
  | chRd => exact execChRd_answers ..
  | bind => exact execBind_answers ..
  | unbind => exact execUnbind_answers ..
  | bindGet => exact execBindGet_answers ..
  | laneSet => exact execLaneSet_answers ..
  | laneGet => exact .ok _ _ (by simp)
  | outStat => exact execOutStat_answers ..
  | outRd => exact execOutRd_answers ..
  | outByte => exact execOutByte_answers ..
  | rsRise | rsAny | gmiiRefresh | tmdsRefresh => cases hr
  | control0 | control1 | control2 | control3 | guardLane0 | guardLane1 | guardLane2 | data00 | data01 | data10 | data11 =>
    cases hc

/-- A refresh of the resampler answers `OK`, whether its output is installed or absent (60_exceptions.md R191). -/
theorem refreshRs_ok (mode : EdgeMode) (s : State) : ∃ t : State, refreshRs mode s = t.ok [] := by
  unfold refreshRs
  split <;> exact ⟨_, rfl⟩

/-- Every refresh answers `OK` without data words, in every state. -/
theorem exec_refresh (i : Instr) (s : State) (hr : isRefresh i = true) : ∃ t : State, exec i s = .next (t.ok []) := by
  cases i with
  | rsRise =>
    obtain ⟨t, ht⟩ := refreshRs_ok .rising s
    exact ⟨t, congrArg Host.Outcome.next ht⟩
  | rsAny =>
    obtain ⟨t, ht⟩ := refreshRs_ok .any s
    exact ⟨t, congrArg Host.Outcome.next ht⟩
  | gmiiRefresh =>
    change ∃ t : State, execGmiiRefresh s = .next (t.ok [])
    unfold execGmiiRefresh
    split <;> exact ⟨_, rfl⟩
  | tmdsRefresh =>
    change ∃ t : State, execTmdsRefresh s = .next (t.ok [])
    unfold execTmdsRefresh
    split <;> exact ⟨_, rfl⟩
  | _ => cases hr

/-- Settles O51: a refresh answers `OK`, and any other command answers `OK` or leaves the state as it was. -/
theorem rejectChangesNothing : Obligations.RejectChangesNothing := by
  refine ⟨rfl, rfl, fun i s hc => ?_⟩
  cases hr : isRefresh i with
  | true =>
    obtain ⟨t, ht⟩ := exec_refresh i s hr
    exact ⟨_, ⟨.ok, []⟩, ht, rfl, by simp, nofun, fun _ => rfl⟩
  | false =>
    have ha := exec_answers i s hc hr
    generalize exec i s = r at ha
    cases ha with
    | rejected => exact ⟨_, ⟨.reject, []⟩, rfl, rfl, by simp, fun _ => rfl, nofun⟩
    | ok t ws hlen => exact ⟨_, ⟨.ok, ws⟩, rfl, rfl, hlen, nofun, nofun⟩

end Sys2Proof.Machine
end


section
/-! Commands: a row of the opcode map with the words of its format encodes its command (30_encoding.md R61 to R63). -/

namespace Sys2Proof

open Machine

/-- A row whose format takes its operand words from the beats of `ps` encodes its command. -/
theorem CommandRow.commandEncoding {b : BitVec 16} {a op : Octet} {ps : List PortWord} {p : OperandWords} {i : Instr}
    (row : CommandRow (headerWord b a op) p i) (hlen : (formatOf op).operandWords = ps.length)
    (hp : ∀ rest, takeOperands (formatOf op) (ps.flatMap wordBeats ++ rest) = some (p, rest)) :
    CommandEncoding i (headerWord b a op) ps := by
  refine ⟨?_, fun rest => row.decode_eq (hp rest)⟩
  change (formatOf (opField (headerWord b a op))).operandWords = ps.length
  rwa [opField_headerWord]

end Sys2Proof
end


section
/-! U0: the operand forms of its commands and the words it answers (30_encoding.md R64, R65, R76). -/

namespace Sys2Proof.Machine

/-! ### Operand forms -/

/-- The descriptors that CH.OPEN accepts, and what they describe (40_fifo.md R90). -/
theorem descriptorOf_eq_some (kind width : Octet) (k : Kind) (w : Nat) :
    descriptorOf kind width = some (k, w) ↔
      ((kind = 1 ∧ k = .scalar ∧ width = 1) ∨ (kind = 2 ∧ k = .bus ∧ 1 ≤ width.toNat ∧ width.toNat ≤ 32)) ∧
        w = width.toNat := by
  have hkind (n : Octet) : kind = n ↔ kind.toNat = n.toNat := BitVec.toNat_inj.symm
  have hwidth : width = 1 ↔ width.toNat = 1 := BitVec.toNat_inj.symm
  unfold descriptorOf
  rw [hkind, hkind, hwidth]
  split
  · next hscalar => grind
  · next hbus => grind
  · next hnotScalar hnotBus => grind

/-- A descriptor that is neither a scalar of width 1 nor a bus of width 1 to 32 is refused (R90). -/
theorem descriptorOf_eq_none (kind width : Octet)
    (h : ¬((kind = 1 ∧ width = 1) ∨ (kind = 2 ∧ 1 ≤ width.toNat ∧ width.toNat ≤ 32))) :
    descriptorOf kind width = none := by
  rw [Option.eq_none_iff_forall_ne_some]
  rintro ⟨k, w⟩ hkw
  obtain ⟨⟨hkind, -, hwidth⟩ | ⟨hkind, -, hwidth⟩, -⟩ := (descriptorOf_eq_some kind width k w).1 hkw
  · exact h (.inl ⟨hkind, hwidth⟩)
  · exact h (.inr ⟨hkind, hwidth⟩)

@[simp] theorem unitNumber_zero : unitNumber 0 = some .rs := rfl

@[simp] theorem unitNumber_one : unitNumber 1 = some .gmii := rfl

@[simp] theorem unitNumber_two : unitNumber 2 = some .tmds := rfl

/-- No output unit: the field is above 2 (R96). -/
theorem unitNumber_eq_none (a : Octet) (h : 3 ≤ a.toNat) : unitNumber a = none := by
  unfold unitNumber
  split
  · omega
  · omega
  · omega
  · rfl

/-- A tick in the range of a signed word is read back from its word (30_encoding.md R65). -/
theorem tickWord_toInt (t : Int) (hlo : -(2 ^ 63) ≤ t) (hhi : t < 2 ^ 63) : (tickWord t).toInt = t :=
  BitVec.toInt_ofInt_eq_self (by decide) hlo hhi

/-- A duration below 2^63 is read back from its word as a signed number. -/
theorem countWord_toInt (n : Nat) (h : n < 2 ^ 63) : (countWord n).toInt = n := by
  have hn : (countWord n).toNat = n := countWord_toNat_of_lt n (by omega)
  rw [BitVec.toInt_eq_toNat_of_lt (by omega), hn]

/-! ### Response words -/

/-- The descriptor word by its shifts, as R65 writes it. -/
theorem descriptorWord_eq (kindCode : Octet) (w : Nat) (hw : w < 256) :
    descriptorWord kindCode w = 1#64 ||| kindCode.setWidth 64 <<< 8 ||| BitVec.ofNat 64 w <<< 16 := by
  have hw64 : (BitVec.ofNat 8 w).setWidth 64 = BitVec.ofNat 64 w := BitVec.setWidth_ofNat_of_le_of_lt (by decide) hw
  calc descriptorWord kindCode w
    _ = (0#40 ++ BitVec.ofNat 8 w ++ kindCode ++ 0#7 ++ 1#1).setWidth 64 := (BitVec.setWidth_eq _).symm
    _ = BitVec.ofNat 64 w <<< 16 ||| kindCode.setWidth 64 <<< 8 ||| 1#64 := by
      simp only [BitVec.setWidth_append_eq_shiftLeft_setWidth_or, BitVec.shiftLeft_or_distrib, ← BitVec.shiftLeft_add, hw64]
      simp
    _ = 1#64 ||| kindCode.setWidth 64 <<< 8 ||| BitVec.ofNat 64 w <<< 16 := by
      rw [BitVec.or_comm _ 1#64, BitVec.or_comm (BitVec.ofNat 64 w <<< 16), BitVec.or_assoc]

/-- The answer to a STAT of a present capture (R65). -/
theorem statWords_some (kindCode : Octet) (w n : Nat) (h : Header) (hw : w < 256) :
    statWords (some ⟨kindCode, w, n, h⟩) =
      [1#64 ||| kindCode.setWidth 64 <<< 8 ||| BitVec.ofNat 64 w <<< 16, BitVec.ofNat 64 n, h.timescale, h.startTs,
        h.startSub] := by
  rw [← descriptorWord_eq kindCode w hw]
  rfl

/-- The code of `CONTROL(j)` is `j` (R76). -/
theorem Symbol.code_control (j : Fin 4) : (Symbol.control j).code.setWidth 64 = BitVec.ofNat 64 j := by
  revert j
  decide

/-- The code of `DATA(v)` is `0x200 + v` (R76). -/
theorem Symbol.code_data (v : Octet) : (Symbol.data v).code.setWidth 64 = BitVec.ofNat 64 (0x200 + v.toNat) := by
  have hv : v.toNat < 2 ^ 8 := v.isLt
  have hcode : (2#2 ++ v : BitVec 10).toNat = 0x200 + v.toNat := by
    rw [BitVec.toNat_append, ← Nat.shiftLeft_add_eq_or_of_lt hv]
    rfl
  apply BitVec.eq_of_toNat_eq
  rw [Symbol.code, BitVec.toNat_setWidth, hcode, BitVec.toNat_ofNat]

/-! ### Entries of the outputs -/

/-- There is no entry at an index of an optional list exactly when every list there ends before it. -/
theorem entry_eq_none_iff {α β : Type} (out : Option α) (entries : α → List β) (n : Nat) :
    (out.bind fun o => (entries o)[n]?) = none ↔ ∀ o, out = some o → (entries o).length ≤ n := by
  simp [Option.bind_eq_none_iff]

/-- There is no octet where the frame is missing or ends before it (40_fifo.md R98). -/
theorem outOctet_eq_none (s : State) (f k : Nat)
    (h : ∀ o fr, s.outGmii = some o → o.frames[f]? = some fr → fr.octets.length ≤ k) : s.outOctet f k = none := by
  unfold State.outOctet
  rw [Option.bind_eq_none_iff]
  intro fr hfr
  obtain ⟨o, ho, hof⟩ := Option.bind_eq_some_iff.1 hfr
  exact List.getElem?_eq_none (h o fr ho hof)

/-- There is no sample where the capture ends before it (R94). -/
theorem capRead_eq_none (s : State) (c : Fin NCH) (n : Nat)
    (h : ∀ cap, s.chan[c] = some cap → cap.samples.length ≤ n) : s.capRead c n = none := by
  rw [Option.eq_none_iff_forall_ne_some]
  intro x hx
  obtain ⟨cap, hc, hn⟩ := (capRead_eq_some s c n x).1 hx
  have := (List.getElem?_eq_some_iff.1 hn).1
  have := h cap hc
  omega

end Sys2Proof.Machine
end


section
/-! U0: what each command of the capture FIFO answers, one equation for each outcome (40_fifo.md R90 to R98). -/

namespace Sys2Proof.Machine

/-- A rejection, as the statements write it: the state with another answer (30_encoding.md R66). -/
theorem State.reject_eq_answered (s : State) : s.reject = s.answered .reject [] := rfl

/-- An answer without another change, as the statements write it. -/
theorem State.ok_eq_answered (s : State) (ws : List PortWord) : s.ok ws = s.answered .ok ws := rfl

/-! ### CH.OPEN, CH.PUSH, CH.DROP -/

theorem exec_chOpen_of_legal {ch kind width : Octet} {c : Fin NCH} {k : Kind} {w : Nat} (hc : channelNumber ch = some c)
    (hd : descriptorOf kind width = some (k, w)) (ts st ss : PortWord) (s : State) :
    exec (.chOpen ch kind width ts st ss) s = .next ((s.putChan c (some ⟨k, w, ⟨ts, st, ss⟩, []⟩)).ok []) := by
  simp only [exec, execChOpen, hc, hd]

theorem exec_chOpen_rejected {ch kind width : Octet} (h : channelNumber ch = none ∨ descriptorOf kind width = none)
    (ts st ss : PortWord) (s : State) :
    exec (.chOpen ch kind width ts st ss) s = .next (s.answered .reject []) := by
  obtain hc | hd := h
  · simp only [exec, execChOpen, hc, State.reject_eq_answered]
  · simp only [exec, execChOpen, hd, State.reject_eq_answered]
    cases channelNumber ch <;> rfl

theorem exec_chPush_noChannel {ch : Octet} (hc : channelNumber ch = none) (o d v : PortWord) (s : State) :
    exec (.chPush ch o d v) s = .next (s.answered .reject []) := by
  simp only [exec, execChPush, hc, State.reject_eq_answered]

theorem exec_chPush_absent {s : State} {c : Fin NCH} (h : s.chan[c] = none) (o d v : PortWord) :
    exec (.chPush (BitVec.ofNat 8 c) o d v) s = .next (s.answered .reject []) := by
  simp only [exec, execChPush, channelNumber_ofNat, h, State.reject_eq_answered]

theorem exec_chPush_present {s : State} {c : Fin NCH} {cap : Capture} (h : s.chan[c] = some cap) (o d v : PortWord) :
    exec (.chPush (BitVec.ofNat 8 c) o d v) s =
      if pushAccepts s.cfg cap o.toInt d.toInt v then
        .next ((s.putChan c (some (cap.append ⟨o.toInt, d.toNat, v.setWidth 32⟩))).ok [])
      else .next (s.answered .reject []) := by
  simp only [exec, execChPush, channelNumber_ofNat, h, State.reject_eq_answered]

theorem exec_chDrop (s : State) (c : Fin NCH) :
    exec (.chDrop (BitVec.ofNat 8 c)) s = .next ((s.putChan c none).ok []) := by
  simp only [exec, execChDrop, channelNumber_ofNat]

theorem exec_chDrop_noChannel {ch : Octet} (hc : channelNumber ch = none) (s : State) :
    exec (.chDrop ch) s = .next (s.answered .reject []) := by
  simp only [exec, execChDrop, hc, State.reject_eq_answered]

/-! ### CH.STAT, CH.RD -/

theorem exec_chStat (s : State) (c : Fin NCH) :
    exec (.chStat (BitVec.ofNat 8 c)) s = .next (s.answered .ok (statWords (s.chan[c].map Capture.descriptor))) := by
  simp only [exec, execChStat, channelNumber_ofNat, State.ok_eq_answered]

theorem exec_chStat_noChannel {ch : Octet} (hc : channelNumber ch = none) (s : State) :
    exec (.chStat ch) s = .next (s.answered .reject []) := by
  simp only [exec, execChStat, hc, State.reject_eq_answered]

theorem exec_chRd_sample {s : State} {c : Fin NCH} {idx : PortWord} {x : Sample} (h : s.capRead c idx.toNat = some x) :
    exec (.chRd (BitVec.ofNat 8 c) idx) s = .next (s.answered .ok (sampleWords x)) := by
  simp only [exec, execChRd, channelNumber_ofNat, h, State.ok_eq_answered]

theorem exec_chRd_noSample {s : State} {c : Fin NCH} {idx : PortWord} (h : s.capRead c idx.toNat = none) :
    exec (.chRd (BitVec.ofNat 8 c) idx) s = .next (s.answered .reject []) := by
  simp only [exec, execChRd, channelNumber_ofNat, h, State.reject_eq_answered]

theorem exec_chRd_noChannel {ch : Octet} (hc : channelNumber ch = none) (idx : PortWord) (s : State) :
    exec (.chRd ch idx) s = .next (s.answered .reject []) := by
  simp only [exec, execChRd, hc, State.reject_eq_answered]

/-! ### OUT.STAT, OUT.RD, OUT.BYTE -/

theorem exec_outStat {a : Octet} {u : OutUnit} (hu : unitNumber a = some u) (s : State) :
    exec (.outStat a) s = .next (s.answered .ok (statWords (s.outDescriptor u))) := by
  simp only [exec, execOutStat, hu, State.ok_eq_answered]

theorem exec_outStat_noUnit {a : Octet} (hu : unitNumber a = none) (s : State) :
    exec (.outStat a) s = .next (s.answered .reject []) := by
  simp only [exec, execOutStat, hu, State.reject_eq_answered]

theorem exec_outRd_entry {a : Octet} {u : OutUnit} {s : State} {idx : PortWord} {ws : List PortWord}
    (hu : unitNumber a = some u) (h : s.outEntry u idx.toNat = some ws) :
    exec (.outRd a idx) s = .next (s.answered .ok ws) := by
  simp only [exec, execOutRd, hu, h, State.ok_eq_answered]

theorem exec_outRd_noEntry {a : Octet} {u : OutUnit} {s : State} {idx : PortWord} (hu : unitNumber a = some u)
    (h : s.outEntry u idx.toNat = none) : exec (.outRd a idx) s = .next (s.answered .reject []) := by
  simp only [exec, execOutRd, hu, h, State.reject_eq_answered]

theorem exec_outRd_noUnit {a : Octet} (hu : unitNumber a = none) (idx : PortWord) (s : State) :
    exec (.outRd a idx) s = .next (s.answered .reject []) := by
  simp only [exec, execOutRd, hu, State.reject_eq_answered]

theorem exec_outByte_octet {s : State} {f k : PortWord} {b : Octet} (h : s.outOctet f.toNat k.toNat = some b) :
    exec (.outByte f k) s = .next (s.answered .ok [b.setWidth 64]) := by
  simp only [exec, execOutByte, h, State.ok_eq_answered]

theorem exec_outByte_noOctet {s : State} {f k : PortWord} (h : s.outOctet f.toNat k.toNat = none) :
    exec (.outByte f k) s = .next (s.answered .reject []) := by
  simp only [exec, execOutByte, h, State.reject_eq_answered]

end Sys2Proof.Machine
end


section
/-! U0: the statements about the commands of the capture FIFO (40_fifo.md R90 to R98). -/

namespace Sys2Proof.Machine

/-- A sample within the bounds of R91 passes the tests of CH.PUSH, its value taken from a 64-bit operand word. -/
theorem pushAccepts_words (cfg : Config) (cap : Capture) (o : Int) (d : Nat) (v : BitVec 32)
    (hfull : cfg.depth ≠ some cap.samples.length) (hstop : o + d ≤ TMAX) (hv : v.toNat < 2 ^ cap.width)
    (hlast : ∀ x, cap.samples.getLast? = some x → x.stop ≤ o) : pushAccepts cfg cap o d (v.setWidth 64) = true := by
  have hvw : (v.setWidth 64).toNat = v.toNat := BitVec.toNat_setWidth_of_le (by decide)
  exact (pushAccepts_iff cfg cap o d _).2 ⟨hfull, by omega, hstop, by rwa [hvw], hlast⟩

/-- Settles O13: the decision of `pushAccepts` is the conjunction of the tests of R91, so a sample that passes them is stored
as it was sent, and any one that fails rejects it. -/
theorem pushAppendsOneSample : Obligations.PushAppendsOneSample := by
  refine ⟨fun ch o d v => (CommandRow.chPush ch ⟨o, d, v⟩).commandEncoding rfl (takeOperands_P3 o d v), ?_,
    fun s ch o d v h => exec_chPush_noChannel ((channelNumber_eq_none ch).2 h) o d v s,
    fun s c o d v h => exec_chPush_absent h o d v, ?_⟩
  · intro s c cap o d v hcap hfull hlo hd hstop hv hlast
    have ho : (BitVec.ofInt 64 o).toInt = o := tickWord_toInt o hlo (by omega)
    have hdi : (BitVec.ofNat 64 d).toInt = d := countWord_toInt d hd
    have hdn : (BitVec.ofNat 64 d).toNat = d := countWord_toNat_of_lt d (by omega)
    have hv32 : (v.setWidth 64).setWidth 32 = v := by simp
    rw [exec_chPush_present hcap, ho, hdi, hdn, hv32, if_pos (pushAccepts_words s.cfg cap o d v hfull hstop hv hlast)]
    rfl
  · intro s c cap o d v hcap hfail
    rw [exec_chPush_present hcap, if_neg]
    intro hacc
    obtain ⟨hfull, hd, hstop, hv, hlast⟩ := (pushAccepts_iff _ _ _ _ _).1 hacc
    obtain h | h | h | h | ⟨x, hx, h⟩ := hfail
    · exact hfull h
    · exact absurd hd (not_le.2 h)
    · exact absurd hstop (not_le.2 h)
    · exact absurd hv (not_lt.2 h)
    · exact absurd (hlast x hx) (not_le.2 h)

/-- Settles O12: the legal descriptors are the two forms of R90. -/
theorem openInstallsAnEmptyCapture : Obligations.OpenInstallsAnEmptyCapture := by
  refine ⟨fun ch kind width ts st ss =>
    (CommandRow.chOpen ch kind width ⟨ts, st, ss⟩).commandEncoding rfl (takeOperands_P3 ts st ss), ?_, ?_⟩
  · intro s c k kind width ts st ss hd
    exact exec_chOpen_of_legal (channelNumber_ofNat c) ((descriptorOf_eq_some _ _ _ _).2 ⟨hd, rfl⟩) ts st ss s
  · intro s ch kind width ts st ss h
    exact exec_chOpen_rejected (h.imp (channelNumber_eq_none ch).2 (descriptorOf_eq_none kind width)) ts st ss s

/-- Settles O14: its outcome turns on the channel number alone. -/
theorem dropEmptiesTheChannel : Obligations.DropEmptiesTheChannel :=
  ⟨fun ch => (CommandRow.chDrop ch _).commandEncoding rfl takeOperands_N, exec_chDrop,
    fun s ch h => exec_chDrop_noChannel ((channelNumber_eq_none ch).2 h) s⟩

/-- Settles O15: the STAT words of the channel's descriptor, its first word written by shifts. -/
theorem statReportsTheCapture : Obligations.StatReportsTheCapture := by
  refine ⟨fun ch => (CommandRow.chStat ch _).commandEncoding rfl takeOperands_N, ?_, ?_,
    fun s ch h => exec_chStat_noChannel ((channelNumber_eq_none ch).2 h) s⟩
  · intro s c h
    rw [exec_chStat, h]
    rfl
  · intro s c w h l k hw hcap
    rw [exec_chStat, hcap, Option.map_some, Capture.descriptor, statWords_some _ _ _ _ hw]
    cases k <;> rfl

/-- Settles O16: the sample that `capRead` finds, and a rejection where it finds none. -/
theorem readAnswersTheSample : Obligations.ReadAnswersTheSample := by
  refine ⟨fun ch idx => (CommandRow.chRd ch ⟨idx, 0, 0⟩).commandEncoding rfl (takeOperands_P1 idx), ?_,
    fun s ch idx h => exec_chRd_noChannel ((channelNumber_eq_none ch).2 h) idx s, ?_, ?_⟩
  · intro s c cap idx x hcap hx
    exact exec_chRd_sample ((capRead_eq_some s c _ x).2 ⟨cap, hcap, hx⟩)
  · intro s c idx h
    exact exec_chRd_noSample (capRead_eq_none s c _ (by simp [h]))
  · intro s c cap idx hcap hlen
    refine exec_chRd_noSample (capRead_eq_none s c _ fun cap' hcap' => ?_)
    obtain rfl : cap = cap' := Option.some.inj (hcap.symm.trans hcap')
    exact hlen

/-- Settles O17: the STAT words of each output's descriptor; absent, they are zero. -/
theorem outStatReportsTheOutput : Obligations.OutStatReportsTheOutput := by
  refine ⟨fun u => (CommandRow.outStat u _).commandEncoding rfl takeOperands_N, fun s => ⟨?_, ?_, ?_⟩, ?_, ?_, ?_,
    fun s u h => exec_outStat_noUnit (unitNumber_eq_none u h) s⟩
  · intro h
    rw [exec_outStat unitNumber_zero, State.outDescriptor, h]
    rfl
  · intro h
    rw [exec_outStat unitNumber_one, State.outDescriptor, h]
    rfl
  · intro h
    rw [exec_outStat unitNumber_two, State.outDescriptor, h]
    rfl
  · intro s k w h l hw hout
    rw [exec_outStat unitNumber_zero, State.outDescriptor, hout, Option.map_some, statWords_some _ _ _ _ hw]
    cases k <;> rfl
  · intro s h l hout
    rw [exec_outStat unitNumber_one, State.outDescriptor, hout, Option.map_some, statWords_some _ _ _ _ (by decide)]
    rfl
  · intro s h l hout
    rw [exec_outStat unitNumber_two, State.outDescriptor, hout, Option.map_some, statWords_some _ _ _ _ (by decide)]
    rfl

/-- Settles O18: the words of the entry of each output, a symbol by its code; no entry where the list has ended. -/
theorem outReadAnswersTheEntry : Obligations.OutReadAnswersTheEntry := by
  refine ⟨fun u idx => (CommandRow.outRd u ⟨idx, 0, 0⟩).commandEncoding rfl (takeOperands_P1 idx), ?_, ?_, ?_,
    fun s u idx h => exec_outRd_noUnit (unitNumber_eq_none u h) idx s, fun s idx => ⟨fun h => ?_, fun h => ?_, fun h => ?_⟩⟩
  · intro s o idx x hout hx
    exact exec_outRd_entry unitNumber_zero (by simp [State.outEntry, hout, hx, sampleWords, tickWord, countWord])
  · intro s o idx f hout hf
    exact exec_outRd_entry unitNumber_one (by simp [State.outEntry, hout, hf, frameWords, tickWord, countWord])
  · intro s o idx x hout hx
    have hentry : s.outEntry .tmds idx.toNat = some (symbolWords x) := by simp [State.outEntry, hout, hx]
    rw [exec_outRd_entry unitNumber_two hentry, symbolWords]
    cases x.sym with
    | control j => rw [Symbol.code_control]; rfl
    | guard => rfl
    | data v => rw [Symbol.code_data]; rfl
  · exact exec_outRd_noEntry unitNumber_zero (Option.map_eq_none_iff.2 ((entry_eq_none_iff s.outRs _ _).2 h))
  · exact exec_outRd_noEntry unitNumber_one (Option.map_eq_none_iff.2 ((entry_eq_none_iff s.outGmii _ _).2 h))
  · exact exec_outRd_noEntry unitNumber_two (Option.map_eq_none_iff.2 ((entry_eq_none_iff s.outTmds _ _).2 h))

/-- Settles O19: the octet that `outOctet` finds, and a rejection where it finds none. -/
theorem outByteAnswersTheOctet : Obligations.OutByteAnswersTheOctet := by
  refine ⟨fun f k => (CommandRow.outByte ⟨f, k, 0⟩).commandEncoding rfl (takeOperands_P2 f k), ?_,
    fun s f k h => exec_outByte_noOctet (outOctet_eq_none s _ _ h)⟩
  intro s o fr f k b hout hfr hb
  exact exec_outByte_octet (by simp [State.outOctet, hout, hfr, hb])

end Sys2Proof.Machine
end


section
/-! Gathering the inputs of a refresh: the three outcomes of `Gather`, each exactly when R116 asks for it (41_config.md). -/

namespace Sys2Proof.Machine

/-! ### The captures of the slots -/

/-- Where every slot has a capture, those are the captures the first loop of R116 collects. -/
theorem boundCaptures_of_slotCaptures (s : State) {slots : List (Fin NSLOT)} {caps : List Capture}
    (h : slots.map s.slotCapture = caps.map some) : s.boundCaptures slots = .ok caps := by
  induction slots generalizing caps with
  | nil =>
    obtain rfl : caps = [] := List.map_eq_nil_iff.1 h.symm
    rfl
  | cons k slots ih =>
    cases caps with
    | nil => cases h
    | cons cap caps =>
      obtain ⟨hk, hslots⟩ := List.cons.inj h
      simp only [State.boundCaptures, (boundCapture_eq_ok s k cap).2 hk, ih hslots]

/-- The first loop of R116 fails exactly when a slot has no capture, and with `E_UNBOUND` alone. -/
theorem boundCaptures_eq_error (s : State) (slots : List (Fin NSLOT)) (e : RefreshError) :
    s.boundCaptures slots = .error e ↔ (∃ k ∈ slots, s.slotCapture k = none) ∧ e = .unbound := by
  induction slots with
  | nil => simp [State.boundCaptures]
  | cons k slots ih =>
    rw [State.boundCaptures, List.exists_mem_cons_iff]
    cases hk : s.boundCapture k with
    | error e' =>
      obtain ⟨hnone, rfl⟩ := (boundCapture_eq_error s k e').1 hk
      simp [hnone, eq_comm]
    | ok cap =>
      have hsome : s.slotCapture k = some cap := (boundCapture_eq_ok s k cap).1 hk
      rw [hsome]
      cases hslots : s.boundCaptures slots with
      | error e' => simpa [hslots] using ih
      | ok caps => simpa [hslots] using ih

/-! ### The checks -/

/-- The second loop of R116: each capture passes the check of its own slot. -/
theorem zipWith_typeOK_all (slots : List (Fin NSLOT)) (caps : List Capture) :
    (List.zipWith typeOK slots caps).all id = true ↔ ∀ p ∈ slots.zip caps, typeOK p.1 p.2 = true := by
  simp [← List.map_uncurry_zip_eq_zipWith]

/-- Comparing every header with the first compares them all (20_memory.md R47). -/
theorem sameHeaders_iff (caps : List Capture) :
    sameHeaders caps = true ↔ ∀ x ∈ caps, ∀ y ∈ caps, x.header = y.header := by
  cases caps with
  | nil => simp [sameHeaders]
  | cons cap caps =>
    have hfirst : sameHeaders (cap :: caps) = true ↔ ∀ x ∈ cap :: caps, x.header = cap.header := by
      simp [sameHeaders]
    rw [hfirst]
    constructor
    · intro h x hx y hy
      exact (h x hx).trans (h y hy).symm
    · intro h x hx
      exact h x hx cap List.mem_cons_self

/-! ### The three outcomes -/

/-- Where every slot has a capture, `Gather` answers these captures if they are sound inputs, and `E_TYPE` if not. -/
theorem gather_of_slotCaptures (s : State) {slots : List (Fin NSLOT)} {caps : List Capture}
    (h : slots.map s.slotCapture = caps.map some) :
    (s.Inputs slots caps ∧ s.gather slots = .ok caps) ∨ (¬s.Inputs slots caps ∧ s.gather slots = .error .type) := by
  have hchecks : ((List.zipWith typeOK slots caps).all id && sameHeaders caps) = true ↔ s.Inputs slots caps := by
    rw [Bool.and_eq_true, zipWith_typeOK_all, sameHeaders_iff, State.Inputs, and_iff_right h]
  rw [State.gather, boundCaptures_of_slotCaptures s h, ← hchecks]
  by_cases hpass : ((List.zipWith typeOK slots caps).all id && sameHeaders caps) = true
  · exact .inl ⟨hpass, if_pos hpass⟩
  · exact .inr ⟨hpass, if_neg hpass⟩

/-- `Gather` answers captures exactly when they are the sound inputs of the slots. -/
theorem gather_eq_ok (s : State) (slots : List (Fin NSLOT)) (caps : List Capture) :
    s.gather slots = .ok caps ↔ s.Inputs slots caps := by
  constructor
  · intro hg
    obtain ⟨hin, -⟩ | ⟨-, htype⟩ := gather_of_slotCaptures s (slotCapture_of_gather s slots caps hg)
    · exact hin
    · rw [hg] at htype
      cases htype
  · intro hin
    have hslots : slots.map s.slotCapture = caps.map some := hin.1
    obtain ⟨-, hg⟩ | ⟨hnot, -⟩ := gather_of_slotCaptures s hslots
    · exact hg
    · exact absurd hin hnot

/-- A slot without a capture fails the whole gather with `E_UNBOUND`. -/
theorem gather_eq_unbound (s : State) {slots : List (Fin NSLOT)} (h : ∃ k ∈ slots, s.slotCapture k = none) :
    s.gather slots = .error .unbound := by
  rw [State.gather, (boundCaptures_eq_error s slots .unbound).2 ⟨h, rfl⟩]

/-- Slots that all have a capture and no sound inputs fail with `E_TYPE`. -/
theorem gather_eq_type (s : State) {slots : List (Fin NSLOT)} (h : ∀ k ∈ slots, s.slotCapture k ≠ none)
    (hnot : ∀ caps, ¬s.Inputs slots caps) : s.gather slots = .error .type := by
  cases hbound : s.boundCaptures slots with
  | error e =>
    obtain ⟨⟨k, hk, hnone⟩, -⟩ := (boundCaptures_eq_error s slots e).1 hbound
    exact absurd hnone (h k hk)
  | ok caps =>
    obtain ⟨hin, -⟩ | ⟨-, htype⟩ := gather_of_slotCaptures s (boundCaptures_eq_ok s slots caps hbound)
    · exact absurd hin (hnot caps)
    · exact htype

/-- Settles O26: collecting the captures decides between `E_UNBOUND` and the checks, and the checks are those of `Inputs`. -/
theorem gatherAcceptsExactlySoundInputs : Obligations.GatherAcceptsExactlySoundInputs :=
  ⟨gather_eq_ok, fun s _ h => gather_eq_unbound s h, fun s _ h hnot => gather_eq_type s h hnot⟩

end Sys2Proof.Machine
end


section
/-! Input binding and the lane: what each command answers, one equation for each outcome, and the statements about them
(41_config.md R110 to R115). -/

namespace Sys2Proof.Machine

/-! ### Operand forms and the word of a binding -/

/-- The field that holds the number of a lane reads as that lane. -/
@[simp] theorem laneNumber_ofNat (l : Fin 3) : laneNumber (BitVec.ofNat 16 l) = some l := by
  rw [laneNumber_eq_some, BitVec.toNat_ofNat]
  omega

/-- The word of a present binding by its shifts, as R113 writes it. -/
theorem bindingWord_some (c : Fin NCH) : bindingWord (some c) = 1#64 ||| BitVec.ofNat 64 c <<< 8 := by
  revert c
  decide

/-! ### BIND, UNBIND, BIND.GET -/

theorem exec_bind_fits {s : State} {k : Fin NSLOT} {c : Fin NCH} {cap : Capture} (hcap : s.chan[c] = some cap)
    (hfit : typeOK k cap = true) :
    exec (.bind (BitVec.ofNat 8 k) (BitVec.ofNat 8 c)) s = .next ((s.putBind k (some c)).ok []) := by
  simp only [exec, execBind, slotNumber_ofNat, channelNumber_ofNat, hcap, if_pos hfit]

theorem exec_bind_noNumber {slot ch : Octet} (h : slotNumber slot = none ∨ channelNumber ch = none) (s : State) :
    exec (.bind slot ch) s = .next (s.answered .reject []) := by
  obtain hslot | hch := h
  · simp only [exec, execBind, hslot, State.reject_eq_answered]
  · simp only [exec, execBind, hch, State.reject_eq_answered]
    cases slotNumber slot <;> rfl

/-- Neither an absent channel nor a capture that fails the check can be bound. -/
theorem exec_bind_unfit {s : State} {k : Fin NSLOT} {c : Fin NCH}
    (h : ∀ cap, s.chan[c] = some cap → typeOK k cap = false) :
    exec (.bind (BitVec.ofNat 8 k) (BitVec.ofNat 8 c)) s = .next (s.answered .reject []) := by
  simp only [exec, execBind, slotNumber_ofNat, channelNumber_ofNat, State.reject_eq_answered]
  cases hcap : s.chan[c] with
  | none => rfl
  | some cap => simp only [h cap hcap, Bool.false_eq_true, if_false]

theorem exec_unbind (s : State) (k : Fin NSLOT) :
    exec (.unbind (BitVec.ofNat 8 k)) s = .next ((s.putBind k none).ok []) := by
  simp only [exec, execUnbind, slotNumber_ofNat]

theorem exec_unbind_noSlot {slot : Octet} (h : slotNumber slot = none) (s : State) :
    exec (.unbind slot) s = .next (s.answered .reject []) := by
  simp only [exec, execUnbind, h, State.reject_eq_answered]

theorem exec_bindGet (s : State) (k : Fin NSLOT) :
    exec (.bindGet (BitVec.ofNat 8 k)) s = .next (s.answered .ok [bindingWord s.bind[k]]) := by
  simp only [exec, execBindGet, slotNumber_ofNat, State.ok_eq_answered]

theorem exec_bindGet_noSlot {slot : Octet} (h : slotNumber slot = none) (s : State) :
    exec (.bindGet slot) s = .next (s.answered .reject []) := by
  simp only [exec, execBindGet, h, State.reject_eq_answered]

/-! ### LANE.SET, LANE.GET -/

theorem exec_laneSet (s : State) (l : Fin 3) :
    exec (.laneSet (BitVec.ofNat 16 l)) s = .next ((s.putLane l).ok []) := by
  simp only [exec, execLaneSet, laneNumber_ofNat]

theorem exec_laneSet_noLane {v : BitVec 16} (h : laneNumber v = none) (s : State) :
    exec (.laneSet v) s = .next (s.answered .reject []) := by
  simp only [exec, execLaneSet, h, State.reject_eq_answered]

theorem exec_laneGet (s : State) : exec .laneGet s = .next (s.answered .ok [countWord s.lane]) := rfl

/-! ### The statements -/

/-- Settles O21, by the three kinds of slot: the bus slot, the slot of the resampler's data, and the others. -/
theorem slotsTakeTheirOwnKind : Obligations.SlotsTakeTheirOwnKind := by
  intro k cap
  unfold typeOK
  split
  · simp
  · simp
  · next hbus hany =>
    have h0 : k ≠ 0 := hbus
    have h6 : k ≠ 6 := hany
    simp [h0, h6]

/-- Settles O22: a binding is made exactly when both numbers exist and the channel holds a capture that fits. -/
theorem bindValidatesAndBinds : Obligations.BindValidatesAndBinds :=
  ⟨fun slot ch => (CommandRow.bind slot ch _).commandEncoding rfl takeOperands_N,
    fun _ _ _ _ hcap hfit => exec_bind_fits hcap hfit,
    fun s slot ch h => exec_bind_noNumber (h.imp (slotNumber_eq_none slot).2 (channelNumber_eq_none ch).2) s,
    fun _ _ _ h => exec_bind_unfit h⟩

/-- Settles O23: its outcome turns on the slot number alone. -/
theorem unbindDisconnectsTheSlot : Obligations.UnbindDisconnectsTheSlot :=
  ⟨fun slot => (CommandRow.unbind slot _).commandEncoding rfl takeOperands_N, exec_unbind,
    fun s slot h => exec_unbind_noSlot ((slotNumber_eq_none slot).2 h) s⟩

/-- Settles O24: the word of the slot's binding, written by shifts where there is one. -/
theorem bindGetReadsTheBinding : Obligations.BindGetReadsTheBinding := by
  refine ⟨fun slot => (CommandRow.bindGet slot _).commandEncoding rfl takeOperands_N, ?_, ?_,
    fun s slot h => exec_bindGet_noSlot ((slotNumber_eq_none slot).2 h) s⟩
  · intro s k hunbound
    rw [exec_bindGet, hunbound]
    rfl
  · intro s k c hbound
    rw [exec_bindGet, hbound, bindingWord_some]

/-- Settles O25: the values of the lane register are the three lane numbers, and it is read as a count. -/
theorem laneIsSetAndRead : Obligations.LaneIsSetAndRead :=
  ⟨fun v => (CommandRow.laneSet v _).commandEncoding rfl takeOperands_N,
    (CommandRow.laneGet _).commandEncoding rfl takeOperands_N, exec_laneSet,
    fun s v h => exec_laneSet_noLane ((laneNumber_eq_none v).2 h) s, exec_laneGet⟩

end Sys2Proof.Machine
end


section
/-! U1: the resampler finds the data value in effect at every selected transition, and what follows for the length and the
durations of its stream (42_resampler.md R120 to R132). -/

namespace Sys2Proof.Machine

/-! ### The selected transitions of a clock -/

/-- The reference reading of edge times uses the resampler's own selection. -/
theorem edgeTimes_eq (mode : EdgeMode) (c : List Sample) :
    edgeTimes mode c = ((c.zip c.tail).filter fun p => selects mode p.1.bit p.2.bit).map fun p => p.2.offset := by
  cases mode with
  | rising => simp [edgeTimes, selects]
  | any => rfl

theorem edgeTimes_cons_of_selects {mode : EdgeMode} {p c : Sample} (h : selects mode p.bit c.bit = true) (cs : List Sample) :
    edgeTimes mode (p :: c :: cs) = c.offset :: edgeTimes mode (c :: cs) := by
  simp [edgeTimes_eq, h]

theorem edgeTimes_cons_of_not_selects {mode : EdgeMode} {p c : Sample} (h : ¬selects mode p.bit c.bit = true)
    (cs : List Sample) : edgeTimes mode (p :: c :: cs) = edgeTimes mode (c :: cs) := by
  simp [edgeTimes_eq, h]

/-- The first clock sample is never an edge, and each later one is an edge at most once, in order (R121, R129). -/
theorem edgeTimes_sublist (mode : EdgeMode) (p : Sample) (cs : List Sample) :
    (edgeTimes mode (p :: cs)).Sublist (cs.map Sample.offset) := by
  induction cs generalizing p with
  | nil => exact .slnil
  | cons c cs ih =>
    by_cases h : selects mode p.bit c.bit = true
    · rw [edgeTimes_cons_of_selects h]
      exact (ih c).cons_cons _
    · rw [edgeTimes_cons_of_not_selects h]
      exact (ih c).cons _

/-- There are fewer transitions than clock samples (R128). -/
theorem edgeTimes_length_le (mode : EdgeMode) (c : List Sample) : (edgeTimes mode c).length ≤ c.length - 1 := by
  cases c with
  | nil => exact le_rfl
  | cons p cs => simpa using (edgeTimes_sublist mode p cs).length_le

/-! ### The value in effect -/

/-- A data sample is in effect from its offset on, until a later one takes its place (R123). -/
theorem valueInEffect_cons (x : Sample) (d : List Sample) (t : Int) :
    valueInEffect (x :: d) t = if x.offset ≤ t then (valueInEffect d t).or (some x.value) else valueInEffect d t := by
  by_cases h : x.offset ≤ t
  · rw [if_pos h, valueInEffect, valueInEffect, List.filter_cons_of_pos (by simpa using h), List.getLast?_cons]
    cases (d.filter fun x => decide (x.offset ≤ t)).getLast? <;> rfl
  · rw [if_neg h, valueInEffect, valueInEffect, List.filter_cons_of_neg (by simpa using h)]

/-- There is a value in effect exactly when some data sample is at or before the time (R124). -/
theorem valueInEffect_isSome (d : List Sample) (t : Int) :
    (valueInEffect d t).isSome = d.any fun x => decide (x.offset ≤ t) := by
  rw [Bool.eq_iff_iff]
  simp [valueInEffect]

/-- No value is in effect before the first data sample (R124). -/
theorem valueInEffect_eq_none {d : List Sample} {t : Int} (h : ∀ x ∈ d, t < x.offset) : valueInEffect d t = none := by
  rw [← Option.not_isSome_iff_eq_none, valueInEffect_isSome]
  simpa using h

/-! ### The data cursor -/

theorem advanceData_rest_suffix (t : Int) (held : Option (BitVec 32)) (ds : List Sample) :
    (advanceData t held ds).2 <:+ ds := by
  induction ds generalizing held with
  | nil => exact List.suffix_rfl
  | cons d ds ih =>
    rw [advanceData]
    split
    · exact (ih _).trans (List.suffix_cons d ds)
    · exact List.suffix_rfl

/-- At its own time the cursor holds the value in effect, and what it held before where the samples ahead give none. -/
theorem advanceData_held (t : Int) (held : Option (BitVec 32)) {ds : List Sample} (hds : SortedOffsets ds) :
    (advanceData t held ds).1 = (valueInEffect ds t).or held := by
  induction ds generalizing held with
  | nil => rfl
  | cons d ds ih =>
    obtain ⟨hfirst, hrest⟩ := List.pairwise_cons.1 hds
    rw [advanceData, valueInEffect_cons]
    split
    · rw [ih _ hrest, Option.or_assoc, Option.some_or]
    · have hnone : valueInEffect ds t = none := valueInEffect_eq_none fun x hx => by
        have := hfirst x hx
        omega
      rw [hnone, Option.none_or]

/-- Nothing is lost by moving the cursor forward: what it holds and the samples still ahead give the same value at every
later time. -/
theorem advanceData_later {t t' : Int} (h : t ≤ t') (held : Option (BitVec 32)) (ds : List Sample) :
    (valueInEffect (advanceData t held ds).2 t').or (advanceData t held ds).1 = (valueInEffect ds t').or held := by
  induction ds generalizing held with
  | nil => rfl
  | cons d ds ih =>
    rw [advanceData]
    split
    · next hd => rw [ih, valueInEffect_cons, if_pos (hd.trans h), Option.or_assoc, Option.some_or]
    · rfl

/-! ### The clock walk -/

/-- A selected edge gives an entry where the cursor holds a value there, and the walk goes on from the moved cursor. -/
theorem resampleFrom_cons_of_selects {mode : EdgeMode} {prev : Bool} {c : Sample} (h : selects mode prev c.bit = true)
    (held : Option (BitVec 32)) (ds cs : List Sample) :
    resampleFrom mode prev held ds (c :: cs) =
      ((advanceData c.offset held ds).1.map fun v => (c.offset, v)).toList ++
        resampleFrom mode c.bit (advanceData c.offset held ds).1 (advanceData c.offset held ds).2 cs := by
  rw [resampleFrom, if_pos h]
  split
  · next he => rw [he]; rfl
  · next he => rw [he]; rfl

theorem resampleFrom_cons_of_not_selects {mode : EdgeMode} {prev : Bool} {c : Sample} (h : ¬selects mode prev c.bit = true)
    (held : Option (BitVec 32)) (ds cs : List Sample) :
    resampleFrom mode prev held ds (c :: cs) = resampleFrom mode c.bit held ds cs := by
  rw [resampleFrom, if_neg h]

/-- The entry that the contract asks for at an edge (R123, R124), when the cursor holds `held` and the samples of `ds` are
ahead of it. -/
def entryAt (held : Option (BitVec 32)) (ds : List Sample) (t : Int) : Option (Int × BitVec 32) :=
  ((valueInEffect ds t).or held).map fun v => (t, v)

/-- The walk with a forward-only cursor gives, for every selected transition after the sample `p`, the entry of the contract:
the times only grow, so the cursor never needs a sample it has passed. -/
theorem resampleFrom_eq (mode : EdgeMode) (p : Sample) (held : Option (BitVec 32)) {ds cs : List Sample}
    (hds : SortedOffsets ds) (hcs : SortedOffsets cs) :
    resampleFrom mode p.bit held ds cs = (edgeTimes mode (p :: cs)).filterMap (entryAt held ds) := by
  induction cs generalizing p held ds with
  | nil => rfl
  | cons c cs ih =>
    obtain ⟨hfirst, hrest⟩ := List.pairwise_cons.1 hcs
    by_cases h : selects mode p.bit c.bit = true
    · have hds' : SortedOffsets (advanceData c.offset held ds).2 :=
        List.Pairwise.sublist (advanceData_rest_suffix _ held ds).sublist hds
      have hlater : ∀ t ∈ edgeTimes mode (c :: cs), c.offset ≤ t := by
        intro t ht
        obtain ⟨x, hx, rfl⟩ := List.mem_map.1 ((edgeTimes_sublist mode c cs).subset ht)
        exact hfirst x hx
      have hentries : (edgeTimes mode (c :: cs)).filterMap
            (entryAt (advanceData c.offset held ds).1 (advanceData c.offset held ds).2) =
          (edgeTimes mode (c :: cs)).filterMap (entryAt held ds) :=
        List.filterMap_congr fun t ht => by rw [entryAt, advanceData_later (hlater t ht), entryAt]
      rw [resampleFrom_cons_of_selects h, edgeTimes_cons_of_selects h, ih c _ hds' hrest, hentries, List.filterMap_cons,
        advanceData_held _ _ hds, entryAt]
      cases (valueInEffect ds c.offset).or held <;> rfl
    · rw [resampleFrom_cons_of_not_selects h, edgeTimes_cons_of_not_selects h, ih c held hds hrest]

/-- On sorted captures the edges and values of the result are those of the contract (R120 to R124). -/
theorem resampleEdges_eq (mode : EdgeMode) {d c : List Sample} (hd : SortedOffsets d) (hc : SortedOffsets c) :
    resampleEdges mode d c = (edgeTimes mode c).filterMap fun t => (valueInEffect d t).map fun v => (t, v) := by
  cases c with
  | nil => rfl
  | cons p cs =>
    rw [resampleEdges, resampleFrom_eq mode p none hd (List.pairwise_cons.1 hc).2]
    exact List.filterMap_congr fun t _ => by rw [entryAt, Option.or_none]

/-- Whatever the captures, each edge of the result is a selected transition, used once, in order. -/
theorem resampleFrom_edges (mode : EdgeMode) (p : Sample) (held : Option (BitVec 32)) (ds cs : List Sample) :
    ((resampleFrom mode p.bit held ds cs).map Prod.fst).Sublist (edgeTimes mode (p :: cs)) := by
  induction cs generalizing p held ds with
  | nil => exact .slnil
  | cons c cs ih =>
    by_cases h : selects mode p.bit c.bit = true
    · rw [resampleFrom_cons_of_selects h, edgeTimes_cons_of_selects h]
      cases (advanceData c.offset held ds).1 with
      | none => exact (ih ..).cons _
      | some v => exact (ih ..).cons_cons _
    · rw [resampleFrom_cons_of_not_selects h, edgeTimes_cons_of_not_selects h]
      exact ih ..

/-! ### The stream -/

/-- Giving durations keeps each edge with its value. -/
theorem withDurations_entries (l : List (Int × BitVec 32)) : (withDurations l).map (fun x => (x.offset, x.value)) = l := by
  induction l using withDurations.induct with
  | case1 => rfl
  | case2 t v => rfl
  | case3 t v t' v' rest ih => rw [withDurations, List.map_cons, ih]

/-- The result has an entry for at most each selected transition (R128). -/
theorem resample_length_le_edgeTimes (mode : EdgeMode) (d c : List Sample) :
    (resample mode d c).length ≤ (edgeTimes mode c).length := by
  rw [resample, ← List.length_map Sample.offset, withDurations_offsets]
  cases c with
  | nil => exact le_rfl
  | cons p cs => exact (resampleFrom_edges mode p none d cs).length_le

/-- Without data samples no edge has a value (R129). -/
theorem resample_no_data (mode : EdgeMode) (c : List Sample) : resample mode [] c = [] :=
  List.eq_nil_iff_forall_not_mem.2 (resample_values (fun _ => False) mode [] c (by simp))

/-- On sorted times each sample ends where the next starts (R127). -/
theorem withDurations_abut (l : List (Int × BitVec 32)) (h : (l.map Prod.fst).Pairwise (· ≤ ·)) :
    (withDurations l).IsChain fun x y => (x.duration : Int) = y.offset - x.offset := by
  induction l using withDurations.induct with
  | case1 => exact .nil
  | case2 t v => exact .singleton _
  | case3 t v t' v' rest ih =>
    obtain ⟨hle, hrest⟩ := List.pairwise_cons.1 h
    have htt : t ≤ t' := hle t' (by simp)
    have hnext : (withDurations ((t', v') :: rest)).head?.map Sample.offset = some t' := by
      rw [← List.head?_map, withDurations_offsets]
      rfl
    rw [withDurations, List.isChain_cons]
    refine ⟨fun y hy => ?_, ih hrest⟩
    rw [Option.mem_def.1 hy] at hnext
    obtain rfl : y.offset = t' := Option.some.inj hnext
    exact Int.toNat_of_nonneg (by omega)

/-- The last sample lasts `LAST_DUR` (R127). -/
theorem withDurations_last (l : List (Int × BitVec 32)) :
    ∀ x, (withDurations l).getLast? = some x → x.duration = LAST_DUR := by
  induction l using withDurations.induct with
  | case1 => simp [withDurations]
  | case2 t v =>
    rintro x ⟨⟩
    rfl
  | case3 t v t' v' rest ih =>
    have hne : withDurations ((t', v') :: rest) ≠ [] := by
      intro hnil
      simpa [hnil] using withDurations_offsets ((t', v') :: rest)
    intro x hx
    rw [withDurations, List.getLast?_cons_of_ne_nil hne] at hx
    exact ih x hx

/-! ### The refresh of the stand-alone resampler -/

/-- With sound inputs the resampled stream is installed (R131, R132). -/
theorem refreshRs_of_inputs {s : State} {d c : Capture} (h : s.Inputs [6, 7] [d, c]) (mode : EdgeMode) :
    refreshRs mode s = (s.installRs (some ⟨d.kind, d.width, c.header, resample mode d.samples c.samples⟩)).ok [] := by
  simp only [refreshRs, State.rsOutput, (gather_eq_ok s [6, 7] [d, c]).2 h]

/-- Without sound inputs the output becomes absent. -/
theorem refreshRs_of_no_inputs {s : State} (h : ∀ d c, ¬s.Inputs [6, 7] [d, c]) (mode : EdgeMode) :
    refreshRs mode s = (s.installRs none).ok [] := by
  rw [refreshRs]
  split
  · next cap hcap =>
    obtain ⟨d, c, hg, -⟩ := rsOutput_eq_ok s mode cap hcap
    exact absurd ((gather_eq_ok s [6, 7] [d, c]).1 hg) (h d c)
  · rfl

/-! ### The statements -/

/-- Settles O28: the invariant of the clock walk is that the cursor and the samples ahead of it give the value in effect at
every time still to come. -/
theorem resampleTakesTheValueInEffect : Obligations.ResampleTakesTheValueInEffect := by
  intro mode d c hd hc
  rw [resample, withDurations_entries, resampleEdges_eq mode hd hc]

/-- Settles O29: the exact length counts the transitions that have a value in effect. -/
theorem resampleLengthIsBounded : Obligations.ResampleLengthIsBounded := by
  refine ⟨fun mode d c hd hc => ?_,
    fun mode d c => ⟨resample_length_le_edgeTimes mode d c, edgeTimes_length_le mode c⟩,
    fun mode l x => ⟨resample_no_data mode l, rfl, rfl⟩⟩
  have hlen := congrArg List.length (resampleTakesTheValueInEffect mode d c hd hc)
  rw [List.length_map, List.length_filterMap_eq_countP, List.countP_eq_length_filter] at hlen
  simpa only [Option.isSome_map, valueInEffect_isSome] using hlen

/-- Settles O30: the edges of a sorted clock are sorted, and none is later than its last offset. -/
theorem resampledSamplesAbut : Obligations.ResampledSamplesAbut := by
  intro mode d c hc
  have hsub : ((resampleEdges mode d c).map Prod.fst).Sublist (c.map Sample.offset) := resampleEdges_times mode d c
  have habut := List.isChain_iff_getElem.1
    (withDurations_abut (resampleEdges mode d c) (List.Pairwise.sublist hsub (List.pairwise_map.2 hc)))
  refine ⟨fun m x y hx hy => ?_, withDurations_last _, fun hmax x hx => ?_⟩
  · obtain ⟨hm, rfl⟩ := List.getElem?_eq_some_iff.1 hx
    obtain ⟨hm', rfl⟩ := List.getElem?_eq_some_iff.1 hy
    exact habut m hm'
  · have hedges : ∀ p ∈ resampleEdges mode d c, p.1 ≤ 2 ^ 63 - 2 := by
      intro p hp
      obtain ⟨y, hy, he⟩ := List.mem_map.1 (hsub.subset (List.mem_map_of_mem hp))
      exact he ▸ hmax y hy
    exact withDurations_stop_le (2 ^ 63 - 2) _ hedges x hx

/-- Settles O27: both commands are the one refresh, in their mode. -/
theorem resamplerRefreshInstallsItsStream : Obligations.ResamplerRefreshInstallsItsStream :=
  ⟨(CommandRow.rsRise _).commandEncoding rfl takeOperands_N, (CommandRow.rsAny _).commandEncoding rfl takeOperands_N,
    fun _ _ _ h => ⟨congrArg Host.Outcome.next (refreshRs_of_inputs h .rising),
      congrArg Host.Outcome.next (refreshRs_of_inputs h .any)⟩,
    fun _ h => ⟨congrArg Host.Outcome.next (refreshRs_of_no_inputs h .rising),
      congrArg Host.Outcome.next (refreshRs_of_no_inputs h .any)⟩⟩

end Sys2Proof.Machine
end


section
/-! U2: the frames of the framer are those of the maximal runs of asserted enable, and what follows for their number, their
octets and their order (43_framer.md R140 to R146). -/

namespace Sys2Proof.Machine

/-! ### The frame of a run -/

theorem pack8_eq_setWidth (v : BitVec 32) : pack8 v = v.setWidth 8 :=
  (BitVec.setWidth_eq_extractLsb' (by decide)).symm

/-- Extending the frame of a run by a sample gives the frame of the longer run; no run, no frame (R143). -/
theorem frameOfRun_concat (r : List (Sample × Sample)) (p : Sample × Sample) :
    frameOfRun (r ++ [p]) = some (extendFrame p.1 (frameOfRun r)) := by
  cases r with
  | nil => simp [frameOfRun, extendFrame, pack8_eq_setWidth, Sample.stop]
  | cons q r => simp [frameOfRun, extendFrame, pack8_eq_setWidth, Sample.stop, List.getLast?_cons]

/-- A run that has a frame has samples, and its frame spans them with one octet for each (R143, R144). -/
theorem frameOfRun_eq_some {r : List (Sample × Sample)} {f : Frame} (h : frameOfRun r = some f) :
    ∃ a ∈ r, ∃ b ∈ r, f.start = a.1.offset ∧ f.stop = b.1.stop ∧ f.octets.length = r.length := by
  unfold frameOfRun at h
  split at h
  · next a b ha hb =>
    cases h
    exact ⟨a, List.mem_of_mem_head? ha, b, List.mem_of_mem_getLast? hb, rfl, rfl, List.length_map ..⟩
  · cases h

/-! ### The runs of a paired stream -/

/-- Two pairs of a run agree on the enable (R142). -/
def sameEnable (a b : Sample × Sample) : Bool := a.2.bit == b.2.bit

/-- The reference reading of the frames, on the pairs of data and enable samples. -/
def framesOfRuns (ps : List (Sample × Sample)) : List Frame :=
  ((ps.splitBy sameEnable).filter fun run => run.all fun p => p.2.bit).filterMap frameOfRun

theorem framesOfRuns_zip (rd re : List Sample) : framesOfRuns (rd.zip re) = (enabledRuns rd re).filterMap frameOfRun := rfl

/-- The frame that stands open after a run whose enable is `b` throughout: none where the enable is 0. -/
def openFrame (b : Bool) (r : List (Sample × Sample)) : Option Frame := if b then frameOfRun r else none

/-- One run of constant enable gives its own frame and no other. -/
theorem framesOfRuns_constant {b : Bool} {r : List (Sample × Sample)} (h : ∀ p ∈ r, p.2.bit = b) :
    framesOfRuns r = (openFrame b r).toList := by
  cases r with
  | nil => cases b <;> rfl
  | cons p r =>
    have hchain : (p :: r).IsChain fun x y => sameEnable x y = true :=
      List.Pairwise.isChain (List.pairwise_of_forall_mem_list fun x hx y hy => by simp [sameEnable, h x hx, h y hy])
    rw [framesOfRuns, List.splitBy_of_isChain (List.cons_ne_nil p r) hchain]
    cases b with
    | true =>
      have hall : ((p :: r).all fun p => p.2.bit) = true := List.all_eq_true.2 h
      rw [List.filter_singleton, hall]
      rfl
    | false =>
      have hnot : ((p :: r).all fun p => p.2.bit) = false := by simp [h p]
      rw [List.filter_singleton, hnot]
      rfl

/-- Where the enable changes, a run ends and the next begins (R142). -/
theorem framesOfRuns_append_cons {r : List (Sample × Sample)} {p : Sample × Sample} (ps : List (Sample × Sample))
    (h : ∀ q ∈ r, q.2.bit ≠ p.2.bit) : framesOfRuns (r ++ p :: ps) = framesOfRuns r ++ framesOfRuns (p :: ps) := by
  have hsplit : (r ++ p :: ps).splitBy sameEnable = r.splitBy sameEnable ++ (p :: ps).splitBy sameEnable :=
    List.splitBy_append_cons ps fun q hq => by simpa [sameEnable] using h q (List.mem_of_mem_getLast? hq)
  rw [framesOfRuns, hsplit, List.filter_append, List.filterMap_append]
  rfl

/-! ### The walk of the framer -/

theorem frameFrom_nil (op : Option Frame) : frameFrom op [] = op.toList := by
  cases op <;> rfl

theorem frameFrom_cons_enabled {p : Sample × Sample} (h : p.2.bit = true) (op : Option Frame) (ps : List (Sample × Sample)) :
    frameFrom op (p :: ps) = frameFrom (some (extendFrame p.1 op)) ps := by
  rw [frameFrom, if_pos h]

theorem frameFrom_cons_disabled {p : Sample × Sample} (h : p.2.bit = false) (op : Option Frame)
    (ps : List (Sample × Sample)) : frameFrom op (p :: ps) = op.toList ++ frameFrom none ps := by
  rw [frameFrom, h, if_neg Bool.false_ne_true]

/-- A sample that continues the run extends the open frame, if there is one. -/
theorem frameFrom_openFrame_same {b : Bool} {p : Sample × Sample} (h : p.2.bit = b) (r ps : List (Sample × Sample)) :
    frameFrom (openFrame b r) (p :: ps) = frameFrom (openFrame b (r ++ [p])) ps := by
  cases b with
  | true =>
    rw [frameFrom_cons_enabled h, openFrame, openFrame, if_pos rfl, if_pos rfl, frameOfRun_concat]
  | false => exact frameFrom_cons_disabled h none ps

/-- A sample that changes the enable closes the open frame and begins a run of its own. -/
theorem frameFrom_openFrame_change {b : Bool} {p : Sample × Sample} (h : p.2.bit ≠ b) (r ps : List (Sample × Sample)) :
    frameFrom (openFrame b r) (p :: ps) = (openFrame b r).toList ++ frameFrom (openFrame p.2.bit [p]) ps := by
  cases b with
  | true =>
    have hp : p.2.bit = false := Bool.eq_false_of_not_eq_true h
    rw [frameFrom_cons_disabled hp, hp]
    rfl
  | false =>
    have hp : p.2.bit = true := Bool.eq_true_of_not_eq_false h
    rw [frameFrom_cons_enabled hp, hp]
    rfl

/-- The walk that stands at the end of a run of constant enable, with the frame of that run open, gives the frames of the
runs of what it has read of the run and what is left. -/
theorem frameFrom_eq_framesOfRuns {b : Bool} {r : List (Sample × Sample)} (ps : List (Sample × Sample))
    (hr : ∀ p ∈ r, p.2.bit = b) : frameFrom (openFrame b r) ps = framesOfRuns (r ++ ps) := by
  induction ps generalizing b r with
  | nil => rw [frameFrom_nil, List.append_nil, framesOfRuns_constant hr]
  | cons p ps ih =>
    by_cases hp : p.2.bit = b
    · have hrun : ∀ q ∈ r ++ [p], q.2.bit = b := by simpa [or_imp, forall_and, hp] using hr
      rw [frameFrom_openFrame_same hp, ih hrun, List.append_assoc, List.singleton_append]
    · have hchange : ∀ q ∈ r, q.2.bit ≠ p.2.bit := fun q hq e => hp (e.symm.trans (hr q hq))
      have hnew : ∀ q ∈ [p], q.2.bit = p.2.bit := by simp
      rw [frameFrom_openFrame_change hp, ih hnew, List.singleton_append, framesOfRuns_append_cons ps hchange,
        framesOfRuns_constant hr]

/-- Before the first sample no run is open. -/
theorem frames_eq_framesOfRuns (rd re : List Sample) : frames rd re = framesOfRuns (rd.zip re) :=
  frameFrom_eq_framesOfRuns (b := false) (r := []) (rd.zip re) (by simp)

/-! ### Counting frames and octets -/

/-- A frame takes at least one sample, and all but the last at least one more to close it (R146). -/
theorem frameFrom_length_le_half (op : Option Frame) (ps : List (Sample × Sample)) :
    2 * (frameFrom op ps).length ≤ ps.length + 1 + op.toList.length := by
  have hop : op.toList.length ≤ 1 := Option.length_toList_le
  induction ps generalizing op with
  | nil =>
    rw [frameFrom_nil, List.length_nil]
    omega
  | cons p ps ih =>
    cases hp : p.2.bit with
    | true =>
      have hrun := ih (some (extendFrame p.1 op)) le_rfl
      rw [Option.toList_some, List.length_singleton] at hrun
      rw [frameFrom_cons_enabled hp, List.length_cons]
      omega
    | false =>
      have hrest := ih none (Nat.zero_le 1)
      rw [Option.toList_none, List.length_nil] at hrest
      rw [frameFrom_cons_disabled hp, List.length_append, List.length_cons]
      omega

/-- How many octets a list of frames holds. -/
def octetCount (fs : List Frame) : Nat := (fs.map fun f => f.octets.length).sum

theorem octetCount_append (fs gs : List Frame) : octetCount (fs ++ gs) = octetCount fs + octetCount gs := by
  simp [octetCount]

/-- Each enabled sample adds one octet (R143). -/
theorem octetCount_extendFrame (x : Sample) (op : Option Frame) :
    octetCount [extendFrame x op] = octetCount op.toList + 1 := by
  cases op <;> simp [octetCount, extendFrame]

/-- The octets are those of the open frame and one for each enabled sample left (R146). -/
theorem octetCount_frameFrom (op : Option Frame) (ps : List (Sample × Sample)) :
    octetCount (frameFrom op ps) = octetCount op.toList + ps.countP fun p => p.2.bit := by
  induction ps generalizing op with
  | nil => rw [frameFrom_nil, List.countP_nil, Nat.add_zero]
  | cons p ps ih =>
    cases hp : p.2.bit with
    | true =>
      rw [frameFrom_cons_enabled hp, ih, Option.toList_some, octetCount_extendFrame, List.countP_cons, if_pos hp]
      omega
    | false =>
      rw [frameFrom_cons_disabled hp, octetCount_append, ih, Option.toList_none, List.countP_cons]
      simp [octetCount, hp]

/-! ### The order of the frames -/

/-- Two runs follow one another, so on ordered data the frame of the earlier ends before that of the later starts (R146). -/
theorem framesOfRuns_pairwise {ps : List (Sample × Sample)} (h : ps.Pairwise fun p q => p.1.stop ≤ q.1.offset) :
    (framesOfRuns ps).Pairwise fun f g => f.stop ≤ g.start := by
  rw [← List.flatten_splitBy sameEnable ps, List.pairwise_flatten] at h
  obtain ⟨-, hruns⟩ := h
  refine (hruns.filter _).filterMap frameOfRun fun r r' hrr' f hf g hg => ?_
  obtain ⟨-, -, b, hb, -, hstop, -⟩ := frameOfRun_eq_some hf
  obtain ⟨a, ha, -, -, hstart, -, -⟩ := frameOfRun_eq_some hg
  rw [hstop, hstart]
  exact hrr' b hb a ha

/-! ### The statements -/

/-- Settles O31: the walk begins at the end of an empty run. -/
theorem framesAreTheEnabledRuns : Obligations.FramesAreTheEnabledRuns := fun rd re =>
  (frames_eq_framesOfRuns rd re).trans (framesOfRuns_zip rd re)

/-- Settles O32: the counts by walking the pairs, the octets and the order of the frames by their runs. -/
theorem framesAreBoundedAndDisjoint : Obligations.FramesAreBoundedAndDisjoint := by
  intro rd re hlen
  have hruns : frames rd re = framesOfRuns (rd.zip re) := frames_eq_framesOfRuns rd re
  refine ⟨fun f hf => ?_, ?_, ?_, fun hord m f g hf hg => ?_⟩
  · rw [hruns] at hf
    obtain ⟨r, -, hr⟩ := List.mem_filterMap.1 hf
    obtain ⟨a, ha, -, -, -, -, hoctets⟩ := frameOfRun_eq_some hr
    exact List.ne_nil_of_length_pos (hoctets ▸ List.length_pos_of_mem ha)
  · have hhalf : 2 * (frames rd re).length ≤ rd.length + 1 := by
      simpa [frames, hlen] using frameFrom_length_le_half none (rd.zip re)
    omega
  · have hsnd : (rd.zip re).map Prod.snd = re := List.map_snd_zip hlen.ge
    have hcount : (rd.zip re).countP (fun p => p.2.bit) = re.countP Sample.bit := by
      conv_rhs => rw [← hsnd, List.countP_map]
      rfl
    exact (octetCount_frameFrom none (rd.zip re)).trans (by simp [octetCount, hcount])
  · have hfst : (rd.zip re).map Prod.fst = rd := List.map_fst_zip hlen.le
    have hpairs : (rd.zip re).Pairwise fun p q => p.1.stop ≤ q.1.offset :=
      List.pairwise_map.1 (hfst ▸ (ordered_iff_pairwise rd).1 hord)
    have hchain := List.isChain_iff_getElem.1 (framesOfRuns_pairwise hpairs).isChain
    rw [hruns] at hf hg
    obtain ⟨-, rfl⟩ := List.getElem?_eq_some_iff.1 hf
    obtain ⟨hm, rfl⟩ := List.getElem?_eq_some_iff.1 hg
    exact hchain m hm

end Sys2Proof.Machine
end


section
/-! U2: what GMII.REFRESH installs, and that the error capture counts by its shape alone (43_framer.md R145, R147, R148). -/

namespace Sys2Proof.Machine

/-! ### The length of a resampled stream -/

/-- The data cursor moves by the offsets alone: whether it holds a value, and the offsets still ahead, do not depend on the
values it passes (42_resampler.md R126). -/
theorem advanceData_congr (t : Int) {held held' : Option (BitVec 32)} {ds ds' : List Sample}
    (hheld : held.isSome = held'.isSome) (hds : ds.map Sample.offset = ds'.map Sample.offset) :
    (advanceData t held ds).1.isSome = (advanceData t held' ds').1.isSome ∧
      (advanceData t held ds).2.map Sample.offset = (advanceData t held' ds').2.map Sample.offset := by
  induction ds generalizing held held' ds' with
  | nil =>
    obtain rfl : ds' = [] := List.map_eq_nil_iff.1 hds.symm
    exact ⟨hheld, rfl⟩
  | cons d ds ih =>
    cases ds' with
    | nil => cases hds
    | cons d' ds' =>
      obtain ⟨hfirst, hrest⟩ := List.cons.inj hds
      rw [advanceData, advanceData, ← hfirst]
      split
      · exact ih rfl hrest
      · exact ⟨hheld, hds⟩

/-- How many edges get a value depends on the offsets of the data alone. -/
theorem resampleFrom_length_congr (mode : EdgeMode) (prev : Bool) {held held' : Option (BitVec 32)} {ds ds' : List Sample}
    (cs : List Sample) (hheld : held.isSome = held'.isSome) (hds : ds.map Sample.offset = ds'.map Sample.offset) :
    (resampleFrom mode prev held ds cs).length = (resampleFrom mode prev held' ds' cs).length := by
  induction cs generalizing prev held held' ds ds' with
  | nil => rfl
  | cons c cs ih =>
    by_cases h : selects mode prev c.bit = true
    · obtain ⟨hheld', hds'⟩ := advanceData_congr c.offset hheld hds
      have hentry : ((advanceData c.offset held ds).1.map fun v => (c.offset, v)).toList.length =
          ((advanceData c.offset held' ds').1.map fun v => (c.offset, v)).toList.length := by
        simp only [Option.length_toList, Option.isSome_map, hheld']
      rw [resampleFrom_cons_of_selects h, resampleFrom_cons_of_selects h, List.length_append, List.length_append, hentry,
        ih c.bit hheld' hds']
    · rw [resampleFrom_cons_of_not_selects h, resampleFrom_cons_of_not_selects h, ih c.bit hheld hds]

/-- The length of a resampled stream depends on the offsets of its data alone. -/
theorem resample_length_congr (mode : EdgeMode) {d d' : List Sample} (c : List Sample)
    (h : d.map Sample.offset = d'.map Sample.offset) : (resample mode d c).length = (resample mode d' c).length := by
  have hedges (x : List Sample) : (resample mode x c).length = (resampleEdges mode x c).length := by
    rw [← List.length_map Sample.offset, resample, withDurations_offsets, List.length_map]
  rw [hedges, hedges]
  cases c with
  | nil => rfl
  | cons c cs => exact resampleFrom_length_congr mode c.bit cs rfl h

/-! ### The refresh -/

/-- What sound inputs give: the frames where the three resampled streams are equally long, and `E_TYPE` where not (R148). -/
theorem gmiiOutput_of_inputs {s : State} {data clk en er : Capture} (h : s.Inputs [0, 1, 2, 3] [data, clk, en, er]) :
    s.gmiiOutput =
      if (resample .rising data.samples clk.samples).length = (resample .rising en.samples clk.samples).length ∧
          (resample .rising en.samples clk.samples).length = (resample .rising er.samples clk.samples).length then
        .ok ⟨clk.header, frames (resample .rising data.samples clk.samples) (resample .rising en.samples clk.samples)⟩
      else .error .type := by
  simp only [State.gmiiOutput, (gather_eq_ok s [0, 1, 2, 3] [data, clk, en, er]).2 h]

/-- There are frames only of sound inputs. -/
theorem inputs_of_gmiiOutput {s : State} {o : GmiiCapture} (h : s.gmiiOutput = .ok o) :
    ∃ data clk en er, s.Inputs [0, 1, 2, 3] [data, clk, en, er] := by
  obtain ⟨data, clk, en, er, hg, -⟩ := gmiiOutput_eq_ok s o h
  exact ⟨data, clk, en, er, (gather_eq_ok s _ _).1 hg⟩

/-- GMII.REFRESH answers `OK` and installs what it computes, absent where that fails (R147). -/
theorem exec_gmiiRefresh (s : State) : exec .gmiiRefresh s = .next ((s.installGmii s.gmiiOutput.toOption).ok []) := by
  simp only [exec, execGmiiRefresh]
  cases s.gmiiOutput <;> rfl

/-! ### Another error capture -/

/-- Two captures that differ in the values and durations of their samples alone. -/
structure SameShape (x y : Capture) : Prop where
  kind : x.kind = y.kind
  width : x.width = y.width
  header : x.header = y.header
  offsets : x.samples.map Sample.offset = y.samples.map Sample.offset

theorem SameShape.symm {x y : Capture} (h : SameShape x y) : SameShape y x :=
  ⟨h.kind.symm, h.width.symm, h.header.symm, h.offsets.symm⟩

/-- A slot takes both of two captures of one shape, or neither (41_config.md R111). -/
theorem SameShape.typeOK_eq {x y : Capture} (h : SameShape x y) (k : Fin NSLOT) : typeOK k x = typeOK k y := by
  unfold typeOK
  rw [h.kind, h.width]

/-- Two states feed the framer alike but for the error capture, which is `x` in one and `y` of the same shape in the other. -/
structure ErrorReplaced (s t : State) (x y : Capture) : Prop where
  others : ∀ k : Fin NSLOT, k < 3 → s.slotCapture k = t.slotCapture k
  error_left : s.slotCapture 3 = some x
  error_right : t.slotCapture 3 = some y
  shape : SameShape x y

theorem ErrorReplaced.symm {s t : State} {x y : Capture} (h : ErrorReplaced s t x y) : ErrorReplaced t s y x :=
  ⟨fun k hk => (h.others k hk).symm, h.error_right, h.error_left, h.shape.symm⟩

/-- Sound inputs stay sound when the error capture is replaced by one of its shape. -/
theorem ErrorReplaced.inputs {s t : State} {x y data clk en er : Capture} (h : ErrorReplaced s t x y)
    (hin : s.Inputs [0, 1, 2, 3] [data, clk, en, er]) : er = x ∧ t.Inputs [0, 1, 2, 3] [data, clk, en, y] := by
  obtain ⟨hslots, htype, hheader⟩ := hin
  simp only [List.map_cons, List.map_nil, List.cons.injEq, and_true, h.others 0 (by decide), h.others 1 (by decide),
    h.others 2 (by decide), h.error_left, Option.some.injEq] at hslots
  obtain ⟨h0, h1, h2, rfl⟩ := hslots
  refine ⟨rfl, ?_, ?_, ?_⟩
  · simp only [List.map_cons, List.map_nil, h0, h1, h2, h.error_right]
  · simpa [h.shape.typeOK_eq] using htype
  · rw [← sameHeaders_iff] at hheader ⊢
    simpa [sameHeaders, h.shape.header] using hheader

/-- Frames that are computed with one error capture are computed with the other: its stream counts by its length (R145). -/
theorem ErrorReplaced.gmiiOutput_eq_ok {s t : State} {x y : Capture} (h : ErrorReplaced s t x y) {o : GmiiCapture}
    (ho : s.gmiiOutput = .ok o) : t.gmiiOutput = .ok o := by
  obtain ⟨data, clk, en, er, hin⟩ := inputs_of_gmiiOutput ho
  obtain ⟨rfl, hin'⟩ := h.inputs hin
  rw [gmiiOutput_of_inputs hin']
  rw [gmiiOutput_of_inputs hin] at ho
  rw [← resample_length_congr .rising clk.samples h.shape.offsets, ho]

/-- So one refresh installs frames exactly when the other does, and the same. -/
theorem ErrorReplaced.installed_eq {s t : State} {x y : Capture} (h : ErrorReplaced s t x y) :
    s.gmiiOutput.toOption = t.gmiiOutput.toOption := by
  cases hs : s.gmiiOutput with
  | ok o => rw [h.gmiiOutput_eq_ok hs]
  | error e =>
    cases ht : t.gmiiOutput with
    | ok o => cases hs.symm.trans (h.symm.gmiiOutput_eq_ok ht)
    | error e' => rfl

/-- Writing a channel changes what the slots bound to it hold, and no other slot. -/
theorem slotCapture_putChan_same {s : State} {c : Fin NCH} {k : Fin NSLOT} (h : s.bind[k] = some c) (v : Option Capture) :
    (s.putChan c v).slotCapture k = v := by
  rw [State.slotCapture, State.putChan_bind, h, Option.bind_some, State.putChan_chan, Fin.getElem_fin,
    Vector.getElem_set_self]

theorem slotCapture_putChan_other {s : State} {c : Fin NCH} {k : Fin NSLOT} (h : s.bind[k] ≠ some c)
    (v : Option Capture) : (s.putChan c v).slotCapture k = s.slotCapture k := by
  rw [State.slotCapture, State.slotCapture, State.putChan_bind]
  cases hk : s.bind[k] with
  | none => rfl
  | some d =>
    have hne : (c : Nat) ≠ d := fun e => h (hk.trans (congrArg some (Fin.ext e.symm)))
    exact Vector.getElem_set_ne c.isLt d.isLt hne

/-! ### The statements -/

/-- Settles O33: the response is always `OK`, so each outcome turns on what the refresh computes from its inputs. -/
theorem gmiiRefreshInstallsTheFrames : Obligations.GmiiRefreshInstallsTheFrames := by
  refine ⟨(CommandRow.gmiiRefresh _).commandEncoding rfl takeOperands_N, ?_, ?_, ?_⟩
  · intro s data clk en er hin hdata herror
    rw [exec_gmiiRefresh, gmiiOutput_of_inputs hin, if_pos ⟨hdata, herror⟩]
    rfl
  · intro s data clk en er hin hlen
    rw [exec_gmiiRefresh, gmiiOutput_of_inputs hin, if_neg hlen]
    rfl
  · intro s hno
    rw [exec_gmiiRefresh]
    cases hout : s.gmiiOutput with
    | ok o =>
      obtain ⟨data, clk, en, er, hin⟩ := inputs_of_gmiiOutput hout
      exact absurd hin (hno data clk en er)
    | error e => rfl

/-- Settles O34: the three other slots keep their captures, and the length of the error stream depends on its offsets alone. -/
theorem gmiiIgnoresErrorValues : Obligations.GmiiIgnoresErrorValues := by
  intro s e er er' hbind hothers hcap hkind hwidth hheader hoffsets
  have hreplaced : ErrorReplaced s (s.putChan e (some er')) er er' :=
    { others := fun k hk => (slotCapture_putChan_other (hothers k hk) _).symm
      error_left := by rw [State.slotCapture, hbind, Option.bind_some, hcap]
      error_right := slotCapture_putChan_same hbind _
      shape := ⟨hkind.symm, hwidth.symm, hheader.symm, hoffsets.symm⟩ }
  exact ⟨_, _, exec_gmiiRefresh s, exec_gmiiRefresh (s.putChan e (some er')), hreplaced.installed_eq⟩

end Sys2Proof.Machine
end


section
/-! U3: the windows a phase counts, and the alignment the search returns (44_tmds_search.md R156 to R162). -/

namespace Sys2Proof.Machine

/-! ### The windows of a phase -/

/-- Bit `k` of a window is the bit of the sample `k` places on (R156). -/
theorem windowAt_getLsbD (st : List Sample) (i : Nat) {k : Nat} (hk : k < 10) :
    (windowAt st i).getLsbD k = bitAt st (i + k) := by
  interval_cases k <;> simp only [windowAt, BitVec.getLsbD_append, BitVec.getLsbD_ofBool] <;> rfl

/-- Sample index `i` starts a complete window of the phase `r` (R156, R157). -/
def startsWindow (st : List Sample) (r i : Nat) : Bool := decide (i % 10 = r ∧ i + 10 ≤ st.length)

theorem startsWindow_iff (st : List Sample) (r i : Nat) : startsWindow st r i = true ↔ i % 10 = r ∧ i + 10 ≤ st.length :=
  decide_eq_true_iff

/-- Of ten indices in a row, the first of which starts a window, no other one starts a window of that phase. -/
theorem filter_startsWindow_next (st : List Sample) {r i : Nat} (hi : startsWindow st r i = true) (l : List Nat) :
    (List.range' i 10 ++ l).filter (startsWindow st r) = i :: l.filter (startsWindow st r) := by
  have hrest : (List.range' (i + 1) 9).filter (startsWindow st r) = [] := by
    refine List.filter_eq_nil_iff.2 fun k hk hstart => ?_
    obtain ⟨hlo, hhi⟩ := List.mem_range'_1.1 hk
    have := (startsWindow_iff st r i).1 hi
    have := (startsWindow_iff st r k).1 hstart
    omega
  rw [List.range'_succ, List.cons_append, List.filter_cons_of_pos hi, List.filter_append, hrest, List.nil_append]

/-- The turns from `i` on read the windows of the phase of `i` that start at `i` or after, when there are turns enough. -/
theorem stridesFrom_eq (st : List Sample) {r : Nat} (n i : Nat) (hr : i % 10 = r) (hn : st.length ≤ i + 10 * n) :
    stridesFrom st n i = ((List.range' i (st.length - i)).filter (startsWindow st r)).map (windowAt st) := by
  induction n generalizing i with
  | zero =>
    rw [show st.length - i = 0 from Nat.sub_eq_zero_of_le hn]
    rfl
  | succ n ih =>
    rw [stridesFrom]
    split
    case isTrue h =>
      have hlen : st.length - i = 10 + (st.length - (i + 10)) :=
        (Nat.add_sub_of_le (Nat.le_sub_of_add_le' h)).symm.trans (by rw [Nat.sub_sub])
      rw [hlen, ← List.range'_append_1, filter_startsWindow_next st ((startsWindow_iff st r i).2 ⟨hr, h⟩), List.map_cons,
        ih (i + 10) (by omega) (by omega)]
    case isFalse h =>
      refine (List.map_eq_nil_iff.2 (List.filter_eq_nil_iff.2 fun k hk hstart => h ?_)).symm
      have hlo := (List.mem_range'_1.1 hk).1
      have hfits := ((startsWindow_iff st r k).1 hstart).2
      exact (Nat.add_le_add_right hlo 10).trans hfits

/-- The windows of a phase, by index (R157): no index before the phase's own number starts one. -/
theorem strides_eq (st : List Sample) (p : Fin 10) :
    strides st p = ((List.range st.length).filter (startsWindow st p)).map (windowAt st) := by
  have hmod : (p : Nat) % 10 = p := Nat.mod_eq_of_lt p.isLt
  have hbelow : ∀ n ≤ (p : Nat), (List.range n).filter (startsWindow st p) = [] := fun n hn =>
    List.filter_eq_nil_iff.2 fun k hk hstart => by
      have := List.mem_range.1 hk
      have := (startsWindow_iff st p k).1 hstart
      omega
  rw [strides, stridesFrom_eq st st.length p hmod (by omega)]
  rcases Nat.le_total p st.length with hle | hle
  · conv_rhs => rw [← Nat.add_sub_of_le hle, List.range_eq_range', ← List.range'_append_1, ← List.range_eq_range',
      List.filter_append, hbelow p le_rfl, Nat.zero_add, List.nil_append]
  · rw [hbelow _ hle, Nat.sub_eq_zero_of_le hle]
    rfl

/-- A counter counts the indices of its phase whose window is its code (R158). -/
theorem matchCount_eq (cfg : Config) (st : List Sample) (p : Fin 10) (j : Fin 4) :
    matchCount cfg st p j =
      (List.range st.length).countP fun i => startsWindow st p i && windowAt st i == cfg.ctrl[j] := by
  rw [matchCount, strides_eq, List.count, List.countP_map, List.countP_filter]
  simp [Bool.and_comm]

/-! ### The scan for the highest count -/

/-- The alignments in the order of the scan: the phases in turn, the codes of each in turn (R158, R161). -/
def alignments : List (Fin 10 × Fin 4) := (List.finRange 10).product (List.finRange 4)

/-- An alignment comes before another in the scan: a lesser phase, or a lesser code of the same phase. -/
def Precedes (a b : Fin 10 × Fin 4) : Prop := toLex a < toLex b

theorem mem_alignments (a : Fin 10 × Fin 4) : a ∈ alignments :=
  List.pair_mem_product.2 ⟨List.mem_finRange _, List.mem_finRange _⟩

theorem alignments_pairwise : alignments.Pairwise Precedes := by
  refine List.pairwise_flatMap.2 ⟨fun p _ => List.pairwise_map.2 ?_, ?_⟩
  · exact (List.pairwise_lt_finRange 4).imp fun hj => .right p hj
  · refine (List.pairwise_lt_finRange 10).imp fun hp x hx y hy => ?_
    obtain ⟨j, -, rfl⟩ := List.mem_map.1 hx
    obtain ⟨k, -, rfl⟩ := List.mem_map.1 hy
    exact .left j k hp

/-- The counters of the search, one for each alignment. -/
def counter (cfg : Config) (st : List Sample) (a : Fin 10 × Fin 4) : Nat := matchCount cfg st a.1 a.2

/-- One turn of the scan, on any counters (R159). -/
def considerAlignment (f : Fin 10 × Fin 4 → Nat) (b : Best) (a : Fin 10 × Fin 4) : Best := b.consider (f a) a.1 a.2

theorem considerAlignment_of_lt {f : Fin 10 × Fin 4 → Nat} {b : Best} {a : Fin 10 × Fin 4} (h : b.count < f a) :
    considerAlignment f b a = ⟨f a, a.1, a.2⟩ := if_pos h

theorem considerAlignment_of_le {f : Fin 10 × Fin 4 → Nat} {b : Best} {a : Fin 10 × Fin 4} (h : f a ≤ b.count) :
    considerAlignment f b a = b := if_neg (Nat.not_lt.2 h)

/-- The two loops of the search are one scan of the alignments. -/
theorem phaseSearch_eq_scan (cfg : Config) (st : List Sample) :
    phaseSearch cfg st = alignments.foldl (considerAlignment (counter cfg st)) ⟨0, 0, 0⟩ := by
  simp only [alignments, List.product, List.foldl_flatMap, List.foldl_map]
  rfl

/-- What a scan returns: the best it began with, when no counter is above it; otherwise the counter of one alignment, above all
those scanned before it and not below those scanned after it. -/
theorem scan_cases (f : Fin 10 × Fin 4 → Nat) (l : List (Fin 10 × Fin 4)) (b : Best) :
    ((∀ a ∈ l, f a ≤ b.count) ∧ l.foldl (considerAlignment f) b = b) ∨
    ∃ before a after, l = before ++ a :: after ∧ l.foldl (considerAlignment f) b = ⟨f a, a.1, a.2⟩ ∧
      b.count < f a ∧ (∀ x ∈ before, f x < f a) ∧ ∀ x ∈ after, f x ≤ f a := by
  induction l generalizing b with
  | nil => exact .inl ⟨by simp, rfl⟩
  | cons x l ih =>
    rw [List.foldl_cons]
    rcases Nat.lt_or_ge b.count (f x) with hx | hx
    · rw [considerAlignment_of_lt hx]
      obtain ⟨hle, hfold⟩ | ⟨before, a, after, rfl, hfold, hlt, hbefore, hafter⟩ := ih ⟨f x, x.1, x.2⟩
      · exact .inr ⟨[], x, l, rfl, hfold, hx, by simp, hle⟩
      · exact .inr ⟨x :: before, a, after, rfl, hfold, hx.trans hlt, List.forall_mem_cons.2 ⟨hlt, hbefore⟩, hafter⟩
    · rw [considerAlignment_of_le hx]
      obtain ⟨hle, hfold⟩ | ⟨before, a, after, rfl, hfold, hlt, hbefore, hafter⟩ := ih b
      · exact .inl ⟨List.forall_mem_cons.2 ⟨hx, hle⟩, hfold⟩
      · exact .inr ⟨x :: before, a, after, rfl, hfold, hlt,
          List.forall_mem_cons.2 ⟨hx.trans_lt hlt, hbefore⟩, hafter⟩

/-- What comes before an alignment in the scan's order was scanned before it. -/
theorem mem_before_of_precedes {before after : List (Fin 10 × Fin 4)} {a x : Fin 10 × Fin 4}
    (hsplit : alignments = before ++ a :: after) (hx : Precedes x a) : x ∈ before := by
  obtain ⟨-, hpairs, -⟩ := List.pairwise_append.1 (hsplit ▸ alignments_pairwise)
  obtain ⟨hlater, -⟩ := List.pairwise_cons.1 hpairs
  obtain hmem | rfl | hmem : x ∈ before ∨ x = a ∨ x ∈ after := by simpa [hsplit] using mem_alignments x
  · exact hmem
  · exact absurd hx (lt_irrefl (toLex x))
  · exact absurd hx (lt_asymm (hlater x hmem))

/-- The search returns its start values when every counter is 0, and otherwise the counter of an alignment, with no
counter above it and every one that comes before it in the scan below it (R159 to R161). -/
theorem phaseSearch_cases (cfg : Config) (st : List Sample) :
    ((∀ a, counter cfg st a = 0) ∧ phaseSearch cfg st = ⟨0, 0, 0⟩) ∨
    ∃ a, phaseSearch cfg st = ⟨counter cfg st a, a.1, a.2⟩ ∧ 0 < counter cfg st a ∧
      (∀ x, counter cfg st x ≤ counter cfg st a) ∧ ∀ x, Precedes x a → counter cfg st x < counter cfg st a := by
  rw [phaseSearch_eq_scan]
  obtain ⟨hle, hfold⟩ | ⟨before, a, after, hsplit, hfold, hpos, hbefore, hafter⟩ :=
    scan_cases (counter cfg st) alignments ⟨0, 0, 0⟩
  · exact .inl ⟨fun a => Nat.le_zero.1 (hle a (mem_alignments a)), hfold⟩
  · refine .inr ⟨a, hfold, hpos, fun x => ?_, fun x hx => hbefore x (mem_before_of_precedes hsplit hx)⟩
    obtain hx | rfl | hx : x ∈ before ∨ x = a ∨ x ∈ after := by simpa [hsplit] using mem_alignments x
    · exact (hbefore x hx).le
    · exact le_rfl
    · exact hafter x hx

/-! ### The bits of the stream -/

theorem bitAt_eq_map_bit (st : List Sample) (n : Nat) : bitAt st n = ((st.map Sample.bit)[n]?).getD false := by
  rw [bitAt, List.getElem?_map]
  cases st[n]? <;> rfl

/-- A window reads the bits of the stream alone. -/
theorem windowAt_congr {st st' : List Sample} (h : st.map Sample.bit = st'.map Sample.bit) (i : Nat) :
    windowAt st i = windowAt st' i :=
  BitVec.eq_of_getLsbD_eq fun k hk => by
    rw [windowAt_getLsbD st i hk, windowAt_getLsbD st' i hk, bitAt_eq_map_bit, bitAt_eq_map_bit, h]

/-- So does a counter, and no field of the configuration but the table of codes. -/
theorem counter_congr {cfg cfg' : Config} {st st' : List Sample} (hctrl : cfg.ctrl = cfg'.ctrl)
    (h : st.map Sample.bit = st'.map Sample.bit) : counter cfg st = counter cfg' st' := by
  have hlen : st.length = st'.length := by simpa using congrArg List.length h
  funext a
  simp only [counter, matchCount_eq, startsWindow, windowAt_congr h, hlen, hctrl]

/-! ### The statements -/

/-- Settles O35: the windows of a phase are listed by their indices, and each is read bit by bit. -/
theorem countersCountCompleteWindows : Obligations.CountersCountCompleteWindows := by
  refine ⟨fun cfg st p j => ?_, fun st i k x _ hk hx => ?_⟩
  · rw [matchCount_eq, List.countP_eq_length_filter]
    simp [startsWindow, Bool.and_assoc, beq_eq_decide]
  · rw [windowAt_getLsbD st i hk, bitAt, hx]

/-- Settles O36: the counter the scan returns is above those of lesser phases and, in its phase, of lesser codes. -/
theorem searchFindsTheFirstBestPhase : Obligations.SearchFindsTheFirstBestPhase := by
  intro cfg st
  obtain ⟨hzero, hsearch⟩ | ⟨a, hsearch, hpos, hmax, hfirst⟩ := phaseSearch_cases cfg st
  · exact ⟨fun _ => hsearch, fun ⟨p, j, hne⟩ => absurd (hzero (p, j)) hne⟩
  · rw [hsearch]
    exact ⟨fun hzero => absurd (hzero a.1 a.2) hpos.ne', fun _ => ⟨rfl, fun p j => hmax (p, j),
      fun p j hp => hfirst (p, j) (.left _ _ hp), fun j hj => hfirst (a.1, j) (.right _ hj)⟩⟩

/-- Settles O37: the search scans its counters, and they are functions of the bits and of the codes. -/
theorem searchDependsOnBitsAlone : Obligations.SearchDependsOnBitsAlone := by
  intro cfg cfg' st st' hctrl hbits
  rw [phaseSearch_eq_scan, phaseSearch_eq_scan, counter_congr hctrl hbits]

end Sys2Proof.Machine
end


section
/-! Data recovery: what `DecodeData` gives bit by bit, and that `EncodeData` is its inverse for each pair `(d9, d8)`
(45_tmds_classify.md R176, R177). -/

namespace Sys2Proof.Machine

/-! ### The two corrections -/

/-- The octet, inverted when `d9` is set. -/
def invertIf (d9 : Bool) (d : Octet) : Octet := if d9 then ~~~d else d

@[simp] theorem invertIf_invertIf (d9 : Bool) (d : Octet) : invertIf d9 (invertIf d9 d) = d := by
  cases d9 <;> simp [invertIf]

theorem invertIf_eq_xor (d9 : Bool) (d : Octet) : invertIf d9 d = if d9 then d ^^^ 0xFF#8 else d := by
  rw [show (0xFF#8 : Octet) = BitVec.allOnes 8 from rfl, BitVec.xor_allOnes, invertIf]

theorem invertIf_getLsbD (d9 : Bool) (d : Octet) {n : Nat} (hn : n < 8) :
    (invertIf d9 d).getLsbD n = (d.getLsbD n ^^ d9) := by
  cases d9 <;> simp [invertIf, hn]

/-- The mask that undoes the choice of exclusive-nor over exclusive-or: every bit but bit 0 when `d8` is clear. -/
def xnorMask (d8 : Bool) : Octet := if d8 then 0 else 0xFE#8

@[simp] theorem xnorMask_zero (d8 : Bool) : (xnorMask d8).getLsbD 0 = false := by
  cases d8 <;> rfl

theorem xnorMask_succ (d8 : Bool) {n : Nat} (hn : n + 1 < 8) : (xnorMask d8).getLsbD (n + 1) = !d8 := by
  have hones : ∀ m < 7, (0xFE#8).getLsbD (m + 1) = true := by decide
  cases d8
  · exact hones n (by omega)
  · simp [xnorMask]

@[simp] theorem xor_xnorMask_true (q : Octet) : q ^^^ xnorMask true = q :=
  BitVec.xor_zero

/-! ### Neighbouring bits, and the running exclusive-or that undoes them -/

/-- Each bit exclusive-or the one below it; bit 0 alone. -/
def neighbourXor (q : Octet) : Octet := q ^^^ q <<< 1

@[simp] theorem neighbourXor_zero (q : Octet) : (neighbourXor q).getLsbD 0 = q.getLsbD 0 := by
  simp [neighbourXor]

theorem neighbourXor_succ (q : Octet) {n : Nat} (hn : n + 1 < 8) :
    (neighbourXor q).getLsbD (n + 1) = (q.getLsbD (n + 1) ^^ q.getLsbD n) := by
  simp [neighbourXor, hn, BitVec.getLsbD_eq_getElem (show n < 8 by omega)]

/-- The exclusive-or of the bits up to `n`. -/
def xorUpTo (u : Octet) : Nat → Bool
  | 0 => u.getLsbD 0
  | n + 1 => u.getLsbD (n + 1) ^^ xorUpTo u n

/-- The octet of these bits: the field `q` that `EncodeData` builds (R177). -/
def runningXor (u : Octet) : Octet :=
  BitVec.ofBool (xorUpTo u 7) ++ BitVec.ofBool (xorUpTo u 6) ++ BitVec.ofBool (xorUpTo u 5)
    ++ BitVec.ofBool (xorUpTo u 4) ++ BitVec.ofBool (xorUpTo u 3) ++ BitVec.ofBool (xorUpTo u 2)
    ++ BitVec.ofBool (xorUpTo u 1) ++ BitVec.ofBool (xorUpTo u 0)

theorem runningXor_getLsbD (u : Octet) {n : Nat} (hn : n < 8) : (runningXor u).getLsbD n = xorUpTo u n := by
  interval_cases n <;> simp only [runningXor, BitVec.getLsbD_append, BitVec.getLsbD_ofBool] <;> rfl

/-- Comparing neighbours gives back what the running exclusive-or was built from. -/
theorem neighbourXor_runningXor (u : Octet) : neighbourXor (runningXor u) = u := by
  refine BitVec.eq_of_getLsbD_eq fun n hn => ?_
  cases n with
  | zero => rw [neighbourXor_zero, runningXor_getLsbD u hn, xorUpTo]
  | succ n =>
    rw [neighbourXor_succ _ hn, runningXor_getLsbD u hn, runningXor_getLsbD u (by omega), xorUpTo, Bool.xor_assoc,
      Bool.xor_self, Bool.xor_false]

/-- The running exclusive-or rebuilds an octet from its neighbours, from bit 0 up. -/
theorem runningXor_neighbourXor (q : Octet) : runningXor (neighbourXor q) = q := by
  refine BitVec.eq_of_getLsbD_eq fun n hn => (runningXor_getLsbD _ hn).trans ?_
  induction n with
  | zero => rw [xorUpTo, neighbourXor_zero]
  | succ n ih =>
    rw [xorUpTo, neighbourXor_succ _ hn, ih (by omega), Bool.xor_assoc, Bool.xor_self, Bool.xor_false]

/-! ### `DecodeData` and `EncodeData` -/

/-- `DecodeData` of a window from its fields (R176). -/
theorem decodeData_dataWindow (d9 d8 : Bool) (d : Octet) :
    decodeData (dataWindow d9 d8 d) = neighbourXor (invertIf d9 d) ^^^ xnorMask d8 := by
  rw [invertIf_eq_xor]
  cases d8 <;> simp [decodeData, neighbourXor, xnorMask, -BitVec.getLsbD_eq_getElem]

theorem decodeData_eq (w : Window) :
    decodeData w = neighbourXor (invertIf (w.getLsbD 9) (dField w)) ^^^ xnorMask (w.getLsbD 8) := by
  rw [← decodeData_dataWindow, dataWindow_fields]

/-- `EncodeData` undoes the steps of `DecodeData` in the opposite order (R177). -/
theorem encodeData_eq (v : Octet) (d9 d8 : Bool) :
    encodeData v d9 d8 = dataWindow d9 d8 (invertIf d9 (runningXor (v ^^^ xnorMask d8))) := by
  rw [invertIf_eq_xor]
  cases d8
  · rfl
  · rw [xor_xnorMask_true]
    rfl

theorem dField_getLsbD (w : Window) {n : Nat} (hn : n < 8) : (dField w).getLsbD n = w.getLsbD n := by
  simp [dField, hn]

/-- Settles O38: bit 0 and the bits above it, which compare neighbours. -/
theorem decodeDataBitByBit : Obligations.DecodeDataBitByBit := by
  intro w n hn
  rw [decodeData_eq, BitVec.getLsbD_xor]
  cases n with
  | zero => rw [neighbourXor_zero, xnorMask_zero, invertIf_getLsbD _ _ hn, dField_getLsbD w hn, Bool.xor_false, if_pos rfl]
  | succ n =>
    have hn' : n < 8 := by omega
    rw [neighbourXor_succ _ hn, xnorMask_succ _ hn, invertIf_getLsbD _ _ hn, invertIf_getLsbD _ _ hn',
      dField_getLsbD w hn, dField_getLsbD w hn', if_neg n.succ_ne_zero, Nat.add_sub_cancel]

/-- Settles O39: inverting, masking and comparing neighbours are each undone. -/
theorem decodeDataInvertsEncodeData : Obligations.DecodeDataInvertsEncodeData := by
  constructor
  · intro v d9 d8
    rw [encodeData_eq, decodeData_dataWindow, invertIf_invertIf, neighbourXor_runningXor, BitVec.xor_assoc,
      BitVec.xor_self, BitVec.xor_zero]
    exact ⟨rfl, dataWindow_d9 _ _ _, dataWindow_d8 _ _ _⟩
  · rintro _ w rfl
    rw [encodeData_eq, decodeData_eq, BitVec.xor_assoc, BitVec.xor_self, BitVec.xor_zero, runningXor_neighbourXor,
      invertIf_invertIf, dataWindow_fields]

end Sys2Proof.Machine
end

section
/-! U4, one window at a time: when each arm of the symbol map is taken, what each class emits, and the step of an open
classification (45_tmds_classify.md R172 to R178). -/

namespace Sys2Proof.Machine

/-! ### When each arm of the symbol map is taken -/

/-- No control code is the window, entry by entry. -/
theorem notControl_iff (cfg : Config) (w : Window) : notControl cfg w = true ↔ ∀ j : Fin 4, w ≠ cfg.ctrl[j] := by
  rw [notControl, ctrl_toList]
  simp [Fin.forall_fin_succ]

/-- The entry is the first with its value, entry by entry. -/
theorem controlIsFirst_iff (cfg : Config) (j : Fin 4) :
    controlIsFirst cfg j = true ↔ ∀ j', j' < j → cfg.ctrl[j] ≠ cfg.ctrl[j'] := by
  rw [controlIsFirst, ctrl_toList]
  fin_cases j <;> simp [Fin.forall_fin_succ]

/-- The CONTROL arm: the least code that the window equals, in any context (R173). -/
theorem symbolOf_control {cfg : Config} (ctx : WindowContext) {w : Window} {j : Fin 4} (hw : w = cfg.ctrl[j])
    (hfirst : ∀ j', j' < j → w ≠ cfg.ctrl[j']) : symbolOf cfg ctx w = .control j := by
  subst hw
  simp only [symbolOf, (controlIndex_eq_some cfg _ j).2 ⟨rfl, (controlIsFirst_iff cfg j).2 hfirst⟩]

/-- The GUARD arm: the lane's pattern, no control code, where the history allows a guard (R174). -/
theorem symbolOf_eq_guard {cfg : Config} {ctx : WindowContext} {w : Window} (hctrl : ∀ j : Fin 4, w ≠ cfg.ctrl[j])
    (hguard : w = cfg.guard[ctx.lane]) (hopen : ctx.guardOpen = true) : symbolOf cfg ctx w = .guard := by
  simp [symbolOf, (controlIndex_eq_none cfg w).2 ((notControl_iff cfg w).2 hctrl), hopen, ← hguard, -Fin.getElem_fin]

/-- The DATA arm: no control code, and no guard the history allows (R175, R183). -/
theorem symbolOf_data {cfg : Config} {ctx : WindowContext} {w : Window} (hctrl : ∀ j : Fin 4, w ≠ cfg.ctrl[j])
    (hguard : w ≠ cfg.guard[ctx.lane] ∨ ctx.guardOpen = false) : symbolOf cfg ctx w = .data (decodeData w) := by
  have hnot : (ctx.guardOpen && w == cfg.guard[ctx.lane]) = false := by
    rcases hguard with h | h <;> simp [h, -Fin.getElem_fin]
  simp only [symbolOf, (controlIndex_eq_none cfg w).2 ((notControl_iff cfg w).2 hctrl), hnot, Bool.false_eq_true, if_false]

/-- The history allows a guard after a CONTROL or a GUARD (R174, R178). -/
theorem guardOpen_iff (ctx : WindowContext) : ctx.guardOpen = true ↔ ctx.last = .preamble ∨ ctx.last = .guard := by
  obtain ⟨lane, last⟩ := ctx
  cases last <;> simp [WindowContext.guardOpen]

/-! ### What each class emits -/

theorem exec_controlInstr (j : Fin 4) (s : State) : exec (controlInstr j) s = controlArm j s := by
  fin_cases j <;> rfl

theorem exec_guardInstr (l : Fin 3) (s : State) : exec (guardInstr l) s = guardArm l s := by
  fin_cases l <;> rfl

/-- A data class takes the fields of its window to the data arm. -/
theorem exec_dataInstr (w : Window) (s : State) :
    exec (dataInstr w) s = dataArm (w.getLsbD 9) (w.getLsbD 8) (dField w) s := by
  unfold dataInstr
  split <;> next h9 h8 => rw [h9, h8]; rfl

theorem controlArm_of_window {s : State} {u : Walk} (j : Fin 4) (hu : s.walk = some u) (hw : u.hasWindow = true) :
    controlArm j s = .next (s.putWalk (some (u.emit (.control j)))) :=
  onWindow_of_window _ s u hu hw

theorem guardArm_of_window {s : State} {u : Walk} (hu : s.walk = some u) (hw : u.hasWindow = true)
    (hopen : u.context.guardOpen = true) : guardArm u.lane s = .next (s.putWalk (some (u.emit .guard))) := by
  rw [guardArm, onWindow_of_window _ s u hu hw, if_pos ⟨rfl, hopen⟩]

theorem dataArm_of_window {s : State} {u : Walk} (d9 d8 : Bool) (d : Octet) (hu : s.walk = some u)
    (hw : u.hasWindow = true) :
    dataArm d9 d8 d s = .next (s.putWalk (some (u.emit (.data (decodeData (dataWindow d9 d8 d)))))) :=
  onWindow_of_window _ s u hu hw

/-! ### The step of an open classification -/

/-- The class that a window decodes to emits the symbol of that window: the decode map and the symbol map take the same arm. -/
theorem exec_decodeWindow {s : State} {u : Walk} (hu : s.walk = some u) (hw : u.hasWindow = true) (w : Window) :
    exec (decodeWindow s.cfg u.context w) s = .next (s.putWalk (some (u.emit (symbolOf s.cfg u.context w)))) := by
  rw [decodeWindow, symbolOf]
  cases controlIndex s.cfg w with
  | some j => exact (exec_controlInstr j s).trans (controlArm_of_window j hu hw)
  | none =>
    by_cases hg : (u.context.guardOpen && w == s.cfg.guard[u.context.lane]) = true
    · have hopen : u.context.guardOpen = true := (Bool.and_eq_true_iff.1 hg).1
      rw [if_pos hg, if_pos hg]
      exact (exec_guardInstr u.lane s).trans (guardArm_of_window hu hw hopen)
    · rw [if_neg hg, if_neg hg, exec_dataInstr, dataArm_of_window _ _ _ hu hw, dataWindow_fields]

/-- With a complete window in an open classification, a step is one turn of the loop of `Classify` (R179). -/
theorem step_open {s : State} {u : Walk} (hu : s.walk = some u) (hw : u.hasWindow = true) :
    step s = .next (s.putWalk (some (u.advance s.cfg))) :=
  (step_of_window hu hw).trans (exec_decodeWindow hu hw u.window)

/-- With no complete window left, a step installs what has been classified and closes the classification (R182). -/
theorem step_finished {s : State} {u : Walk} (hu : s.walk = some u) (hw : u.hasWindow = false) :
    step s = .next ((s.installWalk u).putWalk none) := by
  rw [step, fetch_open s u hu, fetchWindow, if_neg (Bool.eq_false_iff.1 hw)]

/-- A step emits the symbol that the map gives the window at the cursor. -/
theorem step_emits {s : State} {u : Walk} {sym : Symbol} (hu : s.walk = some u) (hw : u.cursor + 10 ≤ u.stream.length)
    (hsym : symbolOf s.cfg u.context u.window = sym) : step s = .next (s.putWalk (some (u.emit sym))) :=
  hsym ▸ step_open hu (u.hasWindow_iff.2 hw)

/-! ### The statements -/

/-- Settles O41. -/
theorem controlArmEmitsControl : Obligations.ControlArmEmitsControl := by
  refine ⟨fun s u j hu hw hj hfirst => step_emits hu hw (symbolOf_control u.context hj hfirst), fun s u hu hw => ?_⟩
  have hemit := fun j => controlArm_of_window j hu (u.hasWindow_iff.2 hw)
  exact ⟨hemit 0, hemit 1, hemit 2, hemit 3⟩

/-- Settles O42: the history decides between the guard and the data arm. -/
theorem guardArmEmitsGuard : Obligations.GuardArmEmitsGuard := by
  constructor
  · intro s u hu hw hctrl hguard
    refine ⟨fun hlast => step_emits hu hw (symbolOf_eq_guard hctrl hguard ((guardOpen_iff u.context).2 hlast)), fun hlast => ?_⟩
    have hclosed : u.context.guardOpen = false := by simp [WindowContext.guardOpen, Walk.context, hlast]
    exact step_emits hu hw (symbolOf_data hctrl (.inr hclosed))
  · intro s u hu hw hlast
    have hemit : ∀ l, u.lane = l → guardArm l s = .next (s.putWalk (some (u.emit .guard))) := by
      rintro _ rfl
      exact guardArm_of_window hu (u.hasWindow_iff.2 hw) ((guardOpen_iff u.context).2 hlast)
    exact ⟨hemit 0, hemit 1, hemit 2⟩

/-- Settles O43: each class decodes the window of its own bits and field. -/
theorem dataArmEmitsTheValue : Obligations.DataArmEmitsTheValue := by
  refine ⟨fun s u hu hw hctrl hguard => step_emits hu hw (symbolOf_data hctrl (.inl hguard)), fun s u d hu hw => ?_⟩
  have hemit : ∀ d9 d8, dataArm d9 d8 d s =
      .next (s.putWalk (some (u.emit (.data (neighbourXor (invertIf d9 d) ^^^ xnorMask d8))))) := fun d9 d8 => by
    rw [dataArm_of_window d9 d8 d hu (u.hasWindow_iff.2 hw), decodeData_dataWindow]
  refine ⟨hemit false false, ?_, hemit true false, ?_⟩
  · exact (hemit false true).trans (by rw [xor_xnorMask_true]; rfl)
  · exact (hemit true true).trans (by rw [xor_xnorMask_true]; rfl)

end Sys2Proof.Machine
end

section
/-! U4, the whole walk: what `Classify` has emitted after any number of turns, and the statements about its output
(45_tmds_classify.md R170 to R181). -/

namespace Sys2Proof.Machine

/-! ### The span of a symbol -/

/-- On a sorted stream no symbol ends before it starts. -/
theorem offsetAt_le_symbolStop {st : List Sample} (hst : SortedOffsets st) {i : Nat} (h : i + 10 ≤ st.length) :
    offsetAt st i ≤ symbolStop st i := by
  have hsorted := List.pairwise_iff_getElem.1 hst
  have hi : i < st.length := by omega
  rw [offsetAt_of_lt st i hi]
  rcases h.lt_or_eq with hlt | heq
  · rw [symbolStop_of_lt st i hlt, offsetAt_of_lt st _ hlt]
    exact hsorted i (i + 10) hi hlt (by omega)
  · rw [symbolStop_of_eq st i heq]
    exact (hsorted i (i + 9) hi (by omega) (by omega)).trans (Sample.offset_le_stop _)

/-- The symbol `sym` with the span of the window at `i` (R172). -/
def windowEntry (st : List Sample) (i : Nat) (sym : Symbol) : SymbolSample :=
  ⟨offsetAt st i, (symbolStop st i - offsetAt st i).toNat, sym⟩

/-- Emitting appends such an entry. -/
theorem Walk.emit_eq (u : Walk) (sym : Symbol) :
    u.emit sym = { u with
      symbols := u.symbols ++ [windowEntry u.stream u.cursor sym], last := sym.leaves, cursor := u.cursor + 10 } := rfl

/-- On a sorted stream the entry ends where R172 says. -/
theorem windowEntry_stop {st : List Sample} (hst : SortedOffsets st) {i : Nat} (h : i + 10 ≤ st.length) (sym : Symbol) :
    (windowEntry st i sym).offset + (windowEntry st i sym).duration = symbolStop st i := by
  have := offsetAt_le_symbolStop hst h
  simp only [windowEntry]
  omega

theorem offsetAt_of_getElem? {st : List Sample} {i : Nat} {x : Sample} (h : st[i]? = some x) :
    offsetAt st i = x.offset := by
  rw [offsetAt, h]

/-- Settles O40. -/
theorem emitAppendsTheSymbolWithItsSpan : Obligations.EmitAppendsTheSymbolWithItsSpan := by
  intro u sym x last hst hx hlast
  obtain ⟨hlt, hget⟩ := List.getElem?_eq_some_iff.1 hlast
  refine ⟨_, u.emit_eq sym, offsetAt_of_getElem? hx, rfl, fun z hz => ?_, fun hend => ?_, by cases sym <;> rfl⟩
  · have hnext := (List.getElem?_eq_some_iff.1 hz).1
    rw [windowEntry_stop hst hnext.le, symbolStop_of_lt _ _ hnext, offsetAt_of_getElem? hz]
  · rw [windowEntry_stop hst hend.ge, symbolStop_of_eq _ _ hend.symm, hget, Sample.stop]

/-! ### The turns of the loop -/

/-- What every turn keeps, the loop keeps (R179). -/
theorem Walk.turns_keeps {cfg : Config} {P : Walk → Prop} (hadvance : ∀ u, u.hasWindow = true → P u → P (u.advance cfg))
    (n : Nat) {u : Walk} (hu : P u) : P (u.turns cfg n) := by
  induction n generalizing u with
  | zero => exact hu
  | succ n ih =>
    rw [Walk.turns]
    split
    · next hw => exact ih (hadvance u hw hu)
    · exact hu

/-- A walk on the stream `st` that started at sample `p` with history `DATA`, after any number of turns: one entry for each
window passed, with the symbol that the map gives it in the history the entries before it leave. -/
structure Classified (cfg : Config) (st : List Sample) (lane : Fin 3) (p : Nat) (u : Walk) : Prop where
  onStream : u.stream = st
  inLane : u.lane = lane
  /-- The history register is what the last symbol left (R178). -/
  history : u.last = historyAfter u.symbols
  /-- Ten samples a symbol have been passed (R171). -/
  cursor : u.cursor = p + 10 * u.symbols.length
  /-- Every window passed was complete (R171). -/
  complete : ∀ m < u.symbols.length, p + 10 * m + 10 ≤ st.length
  entries : ∀ m y, u.symbols[m]? = some y →
    y = windowEntry st (p + 10 * m) (symbolOf cfg ⟨lane, historyAfter (u.symbols.take m)⟩ (windowAt st (p + 10 * m)))

/-- So it is at the start, with nothing emitted. -/
theorem classified_start (cfg : Config) (st : List Sample) (hdr : Header) (lane : Fin 3) (p : Nat) :
    Classified cfg st lane p ⟨st, hdr, lane, p, .data, []⟩ :=
  ⟨rfl, rfl, rfl, rfl, by simp, by simp⟩

/-- And after one more turn: the new entry is the last, and the entries before it stay. -/
theorem Classified.advance {cfg : Config} {st : List Sample} {lane : Fin 3} {p : Nat} {u : Walk}
    (hu : Classified cfg st lane p u) (hw : u.hasWindow = true) : Classified cfg st lane p (u.advance cfg) := by
  obtain ⟨rfl, rfl, hhist, hcursor, hcomplete, hentries⟩ := hu
  rw [Walk.hasWindow_iff] at hw
  rw [Walk.advance, Walk.emit_eq]
  have hlen (y : SymbolSample) : (u.symbols ++ [y]).length = u.symbols.length + 1 := by simp
  refine ⟨rfl, rfl, (historyAfter_append u.symbols (windowEntry _ _ _)).symm, ?_, fun m hm => ?_, fun m y hy => ?_⟩
  · rw [hlen]
    dsimp only
    omega
  · rw [hlen] at hm
    rcases Nat.lt_succ_iff_lt_or_eq.1 hm with hlt | rfl
    · exact hcomplete m hlt
    · exact hcursor ▸ hw
  · have hm := (List.getElem?_eq_some_iff.1 hy).1
    rw [hlen] at hm
    dsimp only
    rw [List.take_append_of_le_length (Nat.lt_succ_iff.1 hm)]
    rcases Nat.lt_succ_iff_lt_or_eq.1 hm with hlt | rfl
    · rw [List.getElem?_append_left hlt] at hy
      exact hentries m y hy
    · rw [List.getElem?_concat_length] at hy
      rw [List.take_length, ← hhist, ← hcursor]
      exact (Option.some.inj hy).symm

/-- The finished walk is classified too. -/
theorem classified_finish (cfg : Config) (st : List Sample) (hdr : Header) (lane : Fin 3) (p : Nat) :
    Classified cfg st lane p (Walk.finish cfg ⟨st, hdr, lane, p, .data, []⟩) :=
  Walk.turns_keeps (fun _ hw hu => hu.advance hw) _ (classified_start cfg st hdr lane p)

section
variable {cfg : Config} {st : List Sample} {lane : Fin 3} {p : Nat} {u : Walk}

/-- With no complete window left, a tenth of the samples from `p` on have a symbol, rounded down (R180). -/
theorem Classified.length_eq (hu : Classified cfg st lane p u) (hw : u.hasWindow = false) :
    u.symbols.length = (st.length - p) / 10 := by
  have hend : ¬p + 10 * u.symbols.length + 10 ≤ st.length := by
    rw [← hu.cursor, ← hu.onStream, ← Walk.hasWindow_iff, hw]
    exact Bool.false_ne_true
  rcases Nat.eq_zero_or_pos u.symbols.length with hzero | hpos
  · omega
  · have := hu.complete (u.symbols.length - 1) (by omega)
    omega

/-- The entry of the `m`-th window, if it is passed. -/
theorem Classified.entry_of_lt (hu : Classified cfg st lane p u) {m : Nat} (hm : m < u.symbols.length) :
    u.symbols[m]? = some (windowEntry st (p + 10 * m)
      (symbolOf cfg ⟨lane, historyAfter (u.symbols.take m)⟩ (windowAt st (p + 10 * m)))) := by
  have hget := List.getElem?_eq_getElem hm
  rw [hget, hu.entries m _ hget]

/-- On a sorted stream adjacent symbols abut (R180). -/
theorem Classified.abut (hu : Classified cfg st lane p u) (hst : SortedOffsets st) {m : Nat} {a b : SymbolSample}
    (ha : u.symbols[m]? = some a) (hb : u.symbols[m + 1]? = some b) : a.offset + a.duration = b.offset := by
  have hnext := hu.complete (m + 1) (List.getElem?_eq_some_iff.1 hb).1
  rw [hu.entries m a ha, hu.entries (m + 1) b hb, windowEntry_stop hst (by omega), symbolStop_of_lt _ _ (by omega)]
  rfl

/-- A guard comes only where the entries before it leave another history than `DATA` (R174). -/
theorem Classified.guard_history (hu : Classified cfg st lane p u) {m : Nat} {b : SymbolSample}
    (hb : u.symbols[m]? = some b) (hguard : b.sym = .guard) : historyAfter (u.symbols.take m) ≠ .data := by
  rw [hu.entries m b hb] at hguard
  exact symbolOf_guard cfg _ _ hguard

end

/-- The history after an entry is what its symbol leaves. -/
theorem historyAfter_take_succ {l : List SymbolSample} {m : Nat} {a : SymbolSample} (ha : l[m]? = some a) :
    historyAfter (l.take (m + 1)) = a.sym.leaves := by
  rw [List.take_add_one, ha]
  exact historyAfter_append _ a

/-- Only a DATA symbol leaves `DATA` (R178). -/
theorem Symbol.leaves_ne_data {sym : Symbol} (h : sym.leaves ≠ .data) : sym = .guard ∨ ∃ j, sym = .control j := by
  cases sym with
  | control j => exact .inr ⟨j, rfl⟩
  | guard => exact .inl rfl
  | data v => exact absurd rfl h

/-! ### The statements about the output -/

/-- Settles O46. -/
theorem classifyEmitsOneSymbolPerWindow : Obligations.ClassifyEmitsOneSymbolPerWindow := by
  intro cfg st h lane p
  have hfin := classified_finish cfg st h lane p
  have hlen := hfin.length_eq (Walk.finish_hasWindow cfg _)
  exact ⟨hlen, fun m x hm hx => ⟨_, hfin.entry_of_lt (by omega), offsetAt_of_getElem? hx, rfl⟩⟩

/-- Settles O47. -/
theorem symbolsAbut : Obligations.SymbolsAbut := by
  intro cfg st h lane p hst
  have hfin := classified_finish cfg st h lane p
  refine ⟨hfin.length_eq (Walk.finish_hasWindow cfg _), fun m a b ha hb => hfin.abut hst ha hb, fun a x ha hx => ?_⟩
  rw [List.head?_eq_getElem?] at ha
  rw [hfin.entries 0 a ha]
  exact offsetAt_of_getElem? hx

/-- Settles O48: the history is `DATA` at the start and after every DATA symbol. -/
theorem guardNeverFollowsData : Obligations.GuardNeverFollowsData := by
  intro cfg st h lane p
  have hfin := classified_finish cfg st h lane p
  refine ⟨fun a ha hguard => ?_, fun m a b ha hb hguard => ?_⟩
  · rw [List.head?_eq_getElem?] at ha
    exact hfin.guard_history ha hguard rfl
  · have hhist := hfin.guard_history hb hguard
    rw [historyAfter_take_succ ha] at hhist
    exact Symbol.leaves_ne_data hhist

end Sys2Proof.Machine
end

section
/-! TMDS.REFRESH: what it installs, and its window steps one after the other (45_tmds_classify.md R179, R182). -/

namespace Sys2Proof.Machine

/-! ### What the refresh installs -/

/-- What sound inputs give: the start registers of U4, and `E_SHORT` where the stream has fewer than 20 bits (R182). -/
theorem startWalk_of_inputs {s : State} {data clk : Capture} (h : s.Inputs [4, 5] [data, clk]) :
    s.startWalk =
      if (resample .any data.samples clk.samples).length < 20 then .error .short
      else .ok ⟨resample .any data.samples clk.samples, clk.header, s.lane,
        (phaseSearch s.cfg (resample .any data.samples clk.samples)).offset, .data, []⟩ := by
  simp only [State.startWalk, (gather_eq_ok s [4, 5] [data, clk]).2 h]

/-- A classification starts only from sound inputs. -/
theorem inputs_of_startWalk {s : State} {u : Walk} (h : s.startWalk = .ok u) : ∃ data clk, s.Inputs [4, 5] [data, clk] := by
  obtain ⟨data, clk, hg, -⟩ := startWalk_eq_ok s u h
  exact ⟨data, clk, (gather_eq_ok s _ _).1 hg⟩

theorem exec_tmdsRefresh_ok {s : State} {u : Walk} (h : s.startWalk = .ok u) :
    exec .tmdsRefresh s = .next (s.installWalk (u.finish s.cfg)) := by
  simp only [exec, execTmdsRefresh, h]

/-- Whatever the error, the output becomes absent and the answer is `OK` (60_exceptions.md R191). -/
theorem exec_tmdsRefresh_error {s : State} {e : RefreshError} (h : s.startWalk = .error e) :
    exec .tmdsRefresh s = .next ((s.installTmds none).ok []) := by
  simp only [exec, execTmdsRefresh, h]
  rfl

/-- The loop leaves the header of the output as it was loaded. -/
@[simp] theorem Walk.finish_header (cfg : Config) (u : Walk) : (u.finish cfg).header = u.header :=
  Walk.turns_keeps (P := fun v => v.header = u.header) (fun _ _ hv => hv) _ rfl

/-- Settles O49: the answer is always `OK`, so each outcome turns on whether a classification starts. -/
theorem tmdsRefreshInstallsTheSymbols : Obligations.TmdsRefreshInstallsTheSymbols := by
  refine ⟨(CommandRow.tmdsRefresh _).commandEncoding rfl takeOperands_N, ?_, fun s data clk hin hlen => ?_, fun s hno => ?_⟩
  · rintro s data clk _ hin rfl hlen
    have hstart := startWalk_of_inputs hin
    rw [if_neg hlen.not_gt] at hstart
    rw [exec_tmdsRefresh_ok hstart, State.installWalk, Walk.capture, Walk.finish_header]
    rfl
  · have hstart := startWalk_of_inputs hin
    rw [if_pos hlen] at hstart
    exact exec_tmdsRefresh_error hstart
  · cases hstart : s.startWalk with
    | ok u =>
      obtain ⟨data, clk, hin⟩ := inputs_of_startWalk hstart
      exact absurd hin (hno data clk)
    | error e => exact exec_tmdsRefresh_error hstart

/-! ### The refresh as window steps -/

theorem Walk.turns_of_window {cfg : Config} {u : Walk} (hw : u.hasWindow = true) (n : Nat) :
    u.turns cfg (n + 1) = (u.advance cfg).turns cfg n := by
  rw [Walk.turns, if_pos hw]

theorem Walk.turns_of_no_window {cfg : Config} {u : Walk} (hw : u.hasWindow = false) (n : Nat) : u.turns cfg n = u := by
  cases n with
  | zero => rfl
  | succ n => rw [Walk.turns, if_neg (Bool.eq_false_iff.1 hw)]

/-- A turn more than enough changes nothing. -/
theorem Walk.turns_succ_of_enough (cfg : Config) (n : Nat) (u : Walk) (h : u.stream.length < u.cursor + 10 + n) :
    u.turns cfg (n + 1) = u.turns cfg n := by
  induction n generalizing u with
  | zero =>
    have hw : u.hasWindow = false := u.turns_hasWindow cfg 0 h
    rw [Walk.turns_of_no_window hw, Walk.turns_of_no_window hw]
  | succ n ih =>
    cases hw : u.hasWindow with
    | false => rw [Walk.turns_of_no_window hw, Walk.turns_of_no_window hw]
    | true =>
      rw [Walk.turns_of_window hw, Walk.turns_of_window hw]
      refine ih (u.advance cfg) ?_
      simp only [Walk.advance, Walk.emit_stream, Walk.emit_cursor]
      omega

/-- A complete window is a turn before the rest. -/
theorem Walk.finish_of_window {cfg : Config} {u : Walk} (hw : u.hasWindow = true) :
    u.finish cfg = (u.advance cfg).finish cfg := by
  rw [Walk.finish, ← Walk.turns_succ_of_enough cfg _ u (by omega), Walk.turns_of_window hw]
  rfl

/-- A run is its first step and the rest. -/
theorem run_succ {s t : State} (h : step s = .next t) (n : Nat) : core.run (n + 1) s = core.run n t := by
  have hcore : core.step s = .next t := h
  simp only [Host.Core.run, hcore]

/-- The steps of an open classification, one for each complete window and one that installs, finish its walk. -/
theorem run_open (s : State) (n : Nat) (u : Walk) (hn : (u.stream.length - u.cursor) / 10 = n) :
    core.run (n + 1) (s.putWalk (some u)) = .next ((s.installWalk (u.finish s.cfg)).putWalk none) := by
  induction n generalizing u with
  | zero =>
    have hw : u.hasWindow = false := by
      rw [← Bool.not_eq_true, Walk.hasWindow_iff]
      omega
    rw [run_succ (step_finished rfl hw), Walk.finish, Walk.turns_of_no_window hw]
    rfl
  | succ n ih =>
    have hw : u.hasWindow = true := by
      rw [Walk.hasWindow_iff]
      omega
    rw [run_succ (step_open rfl hw), Walk.finish_of_window hw]
    refine ih (u.advance s.cfg) ?_
    simp only [Walk.advance, Walk.emit_stream, Walk.emit_cursor]
    omega

theorem putWalk_self {s : State} {v : Option Walk} (h : s.walk = v) : s.putWalk v = s := by
  subst h
  rfl

/-- Settles O50: the window steps finish the walk that the refresh loads, and closing it gives back a state with none open. -/
theorem tmdsRefreshEqualsItsWindowSteps : Obligations.TmdsRefreshEqualsItsWindowSteps := by
  intro s u hnone hstart
  rw [exec_tmdsRefresh_ok hstart]
  exact (run_open s _ u rfl).trans (congrArg _ (putWalk_self hnone))

end Sys2Proof.Machine
end

section
/-! Every step answers: a command on the port always does, and a window class runs only where it has its window
(60_exceptions.md R201). -/

namespace Sys2Proof.Machine

/-- What the decoder reads from the port is a command, never a window class (30_encoding.md R62, R77). -/
theorem isCommand_of_decode {beats rest : List Beat} {i : Instr} (h : decode beats = .instr i rest) : isCommand i = true := by
  obtain ⟨words, hw, -⟩ := decodedCommandsReencode Config.default beats rest i h
  rw [isCommand, hw]

/-- A command answers a next state in every state, whether it answers `OK` or rejects (30_encoding.md R66). -/
theorem exec_command_next {i : Instr} (hc : isCommand i = true) (s : State) : ∃ t, exec i s = .next t := by
  obtain ⟨t, _, ht, -⟩ := rejectChangesNothing.2.2 i s hc
  exact ⟨t, ht⟩

/-- Without a complete command on a free port, a step changes nothing. -/
theorem step_of_incomplete {s : State} (hw : s.walk = none) (hd : decode s.portIn = .incomplete) : step s = .next s := by
  rw [step, fetch_closed s hw, fetchCommand, hd]

/-- Settles O10: the split is on what the step finds, on a free port or in an open classification. -/
theorem everyStepAnswersANextState : Obligations.EveryStepAnswersANextState := by
  intro s
  cases hu : s.walk with
  | none =>
    cases hd : decode s.portIn with
    | incomplete => exact ⟨s, step_of_incomplete hu hd⟩
    | illegal e rest => exact ⟨_, step_of_illegal hu hd⟩
    | instr i rest =>
      rw [step_of_instr hu hd]
      exact exec_command_next (isCommand_of_decode hd) _
  | some u =>
    cases hw : u.hasWindow with
    | false => exact ⟨_, step_finished hu hw⟩
    | true => exact ⟨_, step_open hu hw⟩

end Sys2Proof.Machine
end

section
/-! The division of write rights: what each family of instructions writes (60_exceptions.md R200, 20_memory.md R54). -/

namespace Sys2Proof.Machine

/-! ### The refreshes -/

/-- RS.RISE and RS.ANY install what they compute, absent where that fails (42_resampler.md R131, R132). -/
theorem refreshRs_eq (mode : EdgeMode) (s : State) : refreshRs mode s = (s.installRs (s.rsOutput mode).toOption).ok [] := by
  rw [refreshRs]
  cases s.rsOutput mode <;> rfl

theorem exec_rsRise (s : State) : exec .rsRise s = .next ((s.installRs (s.rsOutput .rising).toOption).ok []) :=
  congrArg Host.Outcome.next (refreshRs_eq .rising s)

theorem exec_rsAny (s : State) : exec .rsAny s = .next ((s.installRs (s.rsOutput .any).toOption).ok []) :=
  congrArg Host.Outcome.next (refreshRs_eq .any s)

/-- TMDS.REFRESH installs the symbols of the walk it starts and finishes, absent where none starts (45_tmds_classify.md R182). -/
theorem exec_tmdsRefresh (s : State) :
    exec .tmdsRefresh s =
      .next ((s.installTmds (s.startWalk.toOption.map fun u => (u.finish s.cfg).capture)).ok []) := by
  cases h : s.startWalk with
  | ok u => exact exec_tmdsRefresh_ok h
  | error e => exact exec_tmdsRefresh_error h

/-! ### The window classes -/

/-- A window class that answers has advanced the open classification and done nothing else. -/
theorem window_writes_walk {i : Instr} {s t : State} (hc : isCommand i = false) (h : exec i s = .next t) :
    ∃ v, t = s.putWalk v := by
  have hrun : ∃ f, exec i s = onWindow f s := by
    cases hi : encode Config.default i with
    | command words => simp [isCommand, hi] at hc
    | window w =>
      rcases window_families _ i w hi with ⟨j, rfl⟩ | ⟨l, rfl⟩ | rfl
      · exact ⟨_, exec_controlInstr j s⟩
      · exact ⟨_, exec_guardInstr l s⟩
      · exact ⟨_, exec_dataInstr w s⟩
  obtain ⟨f, hf⟩ := hrun
  obtain ⟨u, -, -, rfl⟩ := (onWindow_eq_next f s t).1 (hf ▸ h)
  exact ⟨_, rfl⟩

/-! ### The other commands -/

/-- All that a command which is no refresh can write besides its answer: one channel, one binding, the lane, or nothing. It
has no constructor that writes an output. -/
inductive WritesInputs (s : State) : Result → Prop where
  | nothing (r : Response) : WritesInputs s (.next (s.answer r))
  | channel (c : Fin NCH) (v : Option Capture) (r : Response) : WritesInputs s (.next ((s.putChan c v).answer r))
  | binding (k : Fin NSLOT) (v : Option (Fin NCH)) (r : Response) : WritesInputs s (.next ((s.putBind k v).answer r))
  | lane (l : Fin 3) (r : Response) : WritesInputs s (.next ((s.putLane l).answer r))

theorem execChOpen_writes (ch kind width : Octet) (ts st ss : PortWord) (s : State) :
    WritesInputs s (execChOpen ch kind width ts st ss s) := by
  unfold execChOpen
  split
  · exact .channel ..
  · exact .nothing _

theorem execChPush_writes (ch : Octet) (o d v : PortWord) (s : State) : WritesInputs s (execChPush ch o d v s) := by
  unfold execChPush
  split
  · exact .nothing _
  · split
    · exact .nothing _
    · split
      · exact .channel ..
      · exact .nothing _

theorem execChDrop_writes (ch : Octet) (s : State) : WritesInputs s (execChDrop ch s) := by
  unfold execChDrop
  split
  · exact .nothing _
  · exact .channel ..

theorem execBind_writes (slot ch : Octet) (s : State) : WritesInputs s (execBind slot ch s) := by
  unfold execBind
  split
  · split
    · exact .nothing _
    · split
      · exact .binding ..
      · exact .nothing _
  · exact .nothing _

theorem execUnbind_writes (slot : Octet) (s : State) : WritesInputs s (execUnbind slot s) := by
  unfold execUnbind
  split
  · exact .nothing _
  · exact .binding ..

theorem execLaneSet_writes (v : BitVec 16) (s : State) : WritesInputs s (execLaneSet v s) := by
  unfold execLaneSet
  split
  · exact .nothing _
  · exact .lane ..

theorem execChStat_writes (ch : Octet) (s : State) : WritesInputs s (execChStat ch s) := by
  unfold execChStat
  split <;> exact .nothing _

theorem execChRd_writes (ch : Octet) (idx : PortWord) (s : State) : WritesInputs s (execChRd ch idx s) := by
  unfold execChRd
  split
  · exact .nothing _
  · split <;> exact .nothing _

theorem execBindGet_writes (slot : Octet) (s : State) : WritesInputs s (execBindGet slot s) := by
  unfold execBindGet
  split <;> exact .nothing _

theorem execOutStat_writes (unit : Octet) (s : State) : WritesInputs s (execOutStat unit s) := by
  unfold execOutStat
  split <;> exact .nothing _

theorem execOutRd_writes (unit : Octet) (idx : PortWord) (s : State) : WritesInputs s (execOutRd unit idx s) := by
  unfold execOutRd
  split
  · exact .nothing _
  · split <;> exact .nothing _

theorem execOutByte_writes (f k : PortWord) (s : State) : WritesInputs s (execOutByte f k s) := by
  unfold execOutByte
  split <;> exact .nothing _

/-- A command that is no refresh writes at most one of the inputs of the refreshes. -/
theorem exec_writesInputs {i : Instr} (hc : isCommand i = true) (hr : isRefresh i = false) (s : State) :
    WritesInputs s (exec i s) := by
  cases i with
  | chOpen => exact execChOpen_writes ..
  | chPush => exact execChPush_writes ..
  | chDrop => exact execChDrop_writes ..
  | chStat => exact execChStat_writes ..
  | chRd => exact execChRd_writes ..
  | bind => exact execBind_writes ..
  | unbind => exact execUnbind_writes ..
  | bindGet => exact execBindGet_writes ..
  | laneSet => exact execLaneSet_writes ..
  | laneGet => exact .nothing _
  | outStat => exact execOutStat_writes ..
  | outRd => exact execOutRd_writes ..
  | outByte => exact execOutByte_writes ..
  | rsRise | rsAny | gmiiRefresh | tmdsRefresh => cases hr
  | control0 | control1 | control2 | control3 | guardLane0 | guardLane1 | guardLane2 | data00 | data01 | data10 | data11 =>
    cases hc

/-- What writes inputs alone leaves the configuration and the three outputs. -/
theorem WritesInputs.frame {s t : State} (h : WritesInputs s (.next t)) :
    t.cfg = s.cfg ∧ t.outRs = s.outRs ∧ t.outGmii = s.outGmii ∧ t.outTmds = s.outTmds := by
  cases h <;> exact ⟨rfl, rfl, rfl, rfl⟩

/-- Settles O52: a window class writes the open classification, a refresh its own output, and any other command one of the
inputs. -/
theorem writeRightsAreDivided : Obligations.WriteRightsAreDivided := by
  intro i s t h
  cases hc : isCommand i with
  | false =>
    obtain ⟨v, rfl⟩ := window_writes_walk hc h
    exact ⟨rfl, fun _ => ⟨rfl, rfl, rfl⟩, fun _ => ⟨rfl, rfl, rfl⟩, fun _ _ => rfl, fun _ => rfl, fun _ => rfl⟩
  | true =>
    cases hr : isRefresh i with
    | false =>
      obtain ⟨hcfg, hrs, hgmii, htmds⟩ := (h ▸ exec_writesInputs hc hr s : WritesInputs s (.next t)).frame
      exact ⟨hcfg, fun _ => ⟨hrs, hgmii, htmds⟩, by simp, fun _ _ => hrs, fun _ => hgmii, fun _ => htmds⟩
    | true =>
      cases i with
      | rsRise =>
        cases (exec_rsRise s).symm.trans h
        exact ⟨rfl, nofun, fun _ => ⟨rfl, rfl, rfl⟩, fun hi => absurd rfl hi, fun _ => rfl, fun _ => rfl⟩
      | rsAny =>
        cases (exec_rsAny s).symm.trans h
        exact ⟨rfl, nofun, fun _ => ⟨rfl, rfl, rfl⟩, fun _ hi => absurd rfl hi, fun _ => rfl, fun _ => rfl⟩
      | gmiiRefresh =>
        cases (exec_gmiiRefresh s).symm.trans h
        exact ⟨rfl, nofun, fun _ => ⟨rfl, rfl, rfl⟩, fun _ _ => rfl, fun hi => absurd rfl hi, fun _ => rfl⟩
      | tmdsRefresh =>
        cases (exec_tmdsRefresh s).symm.trans h
        exact ⟨rfl, nofun, fun _ => ⟨rfl, rfl, rfl⟩, fun _ _ => rfl, fun _ => rfl, fun hi => absurd rfl hi⟩
      | _ => cases hr

end Sys2Proof.Machine
end

section
/-! A refresh reads the configuration, the channels, the bindings and the lane alone (60_exceptions.md R199, 10_state.md R27). -/

namespace Sys2Proof.Machine

section

variable {s s' : State}

/-- The captures of the slots are read from the channels and the bindings alone. -/
theorem boundCaptures_congr (hchan : s.chan = s'.chan) (hbind : s.bind = s'.bind) (slots : List (Fin NSLOT)) :
    s.boundCaptures slots = s'.boundCaptures slots := by
  have hone : s.boundCapture = s'.boundCapture := by
    funext k
    simp only [State.boundCapture, hchan, hbind]
  induction slots with
  | nil => rfl
  | cons k slots ih => simp only [State.boundCaptures, hone, ih]

theorem gather_congr (hchan : s.chan = s'.chan) (hbind : s.bind = s'.bind) (slots : List (Fin NSLOT)) :
    s.gather slots = s'.gather slots := by
  simp only [State.gather, boundCaptures_congr hchan hbind]

theorem rsOutput_congr (hchan : s.chan = s'.chan) (hbind : s.bind = s'.bind) (mode : EdgeMode) :
    s.rsOutput mode = s'.rsOutput mode := by
  simp only [State.rsOutput, gather_congr hchan hbind]

theorem gmiiOutput_congr (hchan : s.chan = s'.chan) (hbind : s.bind = s'.bind) : s.gmiiOutput = s'.gmiiOutput := by
  simp only [State.gmiiOutput, gather_congr hchan hbind]

/-- The classification starts from the lane and the pattern tables too (45_tmds_classify.md R182). -/
theorem startWalk_congr (hcfg : s.cfg = s'.cfg) (hchan : s.chan = s'.chan) (hbind : s.bind = s'.bind)
    (hlane : s.lane = s'.lane) : s.startWalk = s'.startWalk := by
  simp only [State.startWalk, gather_congr hchan hbind, hcfg, hlane]

end

/-- Settles O53: each refresh installs a function of its inputs. -/
theorem refreshDependsOnItsInputsAlone : Obligations.RefreshDependsOnItsInputsAlone := by
  intro i s s' hr hcfg hchan hbind hlane
  cases i with
  | rsRise =>
    refine ⟨_, _, exec_rsRise s, exec_rsRise s', fun _ => ?_, nofun, nofun⟩
    exact congrArg Except.toOption (rsOutput_congr hchan hbind .rising)
  | rsAny =>
    refine ⟨_, _, exec_rsAny s, exec_rsAny s', fun _ => ?_, nofun, nofun⟩
    exact congrArg Except.toOption (rsOutput_congr hchan hbind .any)
  | gmiiRefresh =>
    refine ⟨_, _, exec_gmiiRefresh s, exec_gmiiRefresh s', by simp, fun _ => ?_, nofun⟩
    exact congrArg Except.toOption (gmiiOutput_congr hchan hbind)
  | tmdsRefresh =>
    refine ⟨_, _, exec_tmdsRefresh s, exec_tmdsRefresh s', by simp, nofun, fun _ => ?_⟩
    simp only [State.ok_outTmds, State.installTmds_outTmds, startWalk_congr hcfg hchan hbind hlane, hcfg]
  | _ => cases hr

end Sys2Proof.Machine
end

section
/-! What can be seen of the reset state: every refresh fails with `E_UNBOUND`, and there is nothing to read
(70_reset_and_hazards.md R212). -/

namespace Sys2Proof.Machine

section

variable (cfg : Config)

/-! ### The refreshes -/

/-- No slot is bound, so no slot has a capture. -/
theorem State.resetWith_slotCapture (k : Fin NSLOT) : (State.resetWith cfg).slotCapture k = none := by
  rw [State.slotCapture, State.resetWith_bind, Option.bind_none]

theorem State.resetWith_gather (k : Fin NSLOT) (slots : List (Fin NSLOT)) :
    (State.resetWith cfg).gather (k :: slots) = .error .unbound :=
  gather_eq_unbound _ ⟨k, List.mem_cons_self, State.resetWith_slotCapture cfg k⟩

theorem State.resetWith_rsOutput (mode : EdgeMode) : (State.resetWith cfg).rsOutput mode = .error .unbound := by
  rw [State.rsOutput, State.resetWith_gather]

theorem State.resetWith_gmiiOutput : (State.resetWith cfg).gmiiOutput = .error .unbound := by
  rw [State.gmiiOutput, State.resetWith_gather]

theorem State.resetWith_startWalk : (State.resetWith cfg).startWalk = .error .unbound := by
  rw [State.startWalk, State.resetWith_gather]

/-! ### The reads -/

theorem State.resetWith_capRead (c : Fin NCH) (n : Nat) : (State.resetWith cfg).capRead c n = none := by
  rw [State.capRead, State.resetWith_chan]

theorem State.resetWith_outEntry (u : OutUnit) (n : Nat) : (State.resetWith cfg).outEntry u n = none := by
  cases u <;> rfl

theorem State.resetWith_outOctet (f k : Nat) : (State.resetWith cfg).outOctet f k = none := rfl

/-- CH.RD is rejected: the channel does not exist, or it has no sample (40_fifo.md R94). -/
theorem exec_chRd_resetWith (ch : Octet) (idx : PortWord) :
    exec (.chRd ch idx) (State.resetWith cfg) = .next ((State.resetWith cfg).answered .reject []) := by
  cases hc : channelNumber ch with
  | none => exact exec_chRd_noChannel hc idx _
  | some c =>
    obtain rfl : BitVec.ofNat 8 c = ch := by rw [← (channelNumber_eq_some ch c).1 hc, BitVec.ofNat_toNat, BitVec.setWidth_eq]
    exact exec_chRd_noSample (State.resetWith_capRead cfg c _)

/-- OUT.RD is rejected: the unit does not exist, or its output has no entry (40_fifo.md R97). -/
theorem exec_outRd_resetWith (a : Octet) (idx : PortWord) :
    exec (.outRd a idx) (State.resetWith cfg) = .next ((State.resetWith cfg).answered .reject []) := by
  cases hu : unitNumber a with
  | none => exact exec_outRd_noUnit hu idx _
  | some u => exact exec_outRd_noEntry hu (State.resetWith_outEntry cfg u _)

end

/-- Settles O55: no slot is bound, so every refresh fails and installs nothing, and no channel or output holds anything that a
read could find. -/
theorem afterResetNothingIsThere : Obligations.AfterResetNothingIsThere := by
  intro cfg
  refine ⟨⟨_, exec_rsRise _, ?_⟩, ⟨_, exec_rsAny _, ?_⟩, ⟨_, exec_gmiiRefresh _, ?_⟩, ⟨_, exec_tmdsRefresh _, ?_⟩,
    fun a idx => ⟨exec_chRd_resetWith cfg a idx, exec_outRd_resetWith cfg a idx⟩,
    fun f k => exec_outByte_noOctet (State.resetWith_outOctet cfg _ _), exec_laneGet _⟩
  · exact congrArg Except.toOption (State.resetWith_rsOutput cfg .rising)
  · exact congrArg Except.toOption (State.resetWith_rsOutput cfg .any)
  · exact congrArg Except.toOption (State.resetWith_gmiiOutput cfg)
  · rw [State.resetWith_startWalk]
    rfl

end Sys2Proof.Machine
end


section
/-! The port while a command is incomplete: when the decoder waits for more beats (30_encoding.md R61, log entry 1). -/

namespace Sys2Proof

/-- The operand words of a format are two beats each. -/
theorem operandBeats_length (f : Format) (p : OperandWords) : (operandBeats f p).length = 2 * f.operandWords := by
  cases f <;> rfl

/-- The operand words have not all come exactly when fewer beats than two for each word stand on the port. -/
theorem takeOperands_eq_none (f : Format) (beats : List Beat) :
    takeOperands f beats = none ↔ beats.length < 2 * f.operandWords := by
  constructor
  · intro hnone
    by_contra hlen
    obtain ⟨p, hp⟩ := takeOperands_of_length f (beats.take (2 * f.operandWords)) (beats.drop (2 * f.operandWords))
      (List.length_take_of_le (not_lt.1 hlen))
    rw [List.take_append_drop, hnone] at hp
    cases hp
  · intro hlen
    cases hp : takeOperands f beats with
    | none => rfl
    | some taken =>
      have hbeats := congrArg List.length (eq_operandBeats_of_takeOperands f beats taken.2 taken.1 hp)
      rw [List.length_append, operandBeats_length] at hbeats
      omega

/-- After a header the decoder waits exactly for the operand words: whether the header is legal plays no part. -/
theorem decode_cons_eq_incomplete (h : Beat) (beats : List Beat) :
    decode (h :: beats) = .incomplete ↔ takeOperands (formatOf (opField h)) beats = none := by
  cases hp : takeOperands (formatOf (opField h)) beats with
  | none => simp only [decode, hp]
  | some taken =>
    cases hd : decodeCommand h taken.1 with
    | ok i => simp [decode_of_ok hp hd]
    | error e => simp [decode_of_error hp hd]

end Sys2Proof

namespace Sys2Proof.Machine

/-- Settles O9. -/
theorem incompleteCommandsWait : Obligations.IncompleteCommandsWait :=
  ⟨fun _ hw hd => step_of_incomplete hw hd, rfl,
    fun h words => (decode_cons_eq_incomplete h words).trans (takeOperands_eq_none _ words)⟩

end Sys2Proof.Machine
end

section
/-! A window class executed by itself: what a guard class emits out of its context, and when a class has no window to act on
(45_tmds_classify.md R174, R183, log entry 2). -/

namespace Sys2Proof.Machine

/-- A guard class out of its context takes its pattern to the data arm. -/
theorem guardArm_out_of_context {s : State} {u : Walk} {l : Fin 3} (hu : s.walk = some u) (hw : u.hasWindow = true)
    (hctx : u.lane ≠ l ∨ u.last = .data) :
    guardArm l s = .next (s.putWalk (some (u.emit (.data (decodeData s.cfg.guard[l]))))) := by
  have hnot : ¬(u.context.lane = l ∧ u.context.guardOpen = true) := by
    rintro ⟨hlane, hopen⟩
    rcases hctx with hother | hlast
    · exact hother hlane
    · have hclosed : u.context.guardOpen = false := by simp [WindowContext.guardOpen, Walk.context, hlast]
      exact Bool.false_ne_true (hclosed.symm.trans hopen)
  rw [guardArm, onWindow_of_window _ s u hu hw, if_neg hnot]

/-- Settles O44. -/
theorem guardClassesOutOfContextEmitData : Obligations.GuardClassesOutOfContextEmitData := by
  intro s u hu hw
  have hemit := fun l : Fin 3 => guardArm_out_of_context (l := l) hu (u.hasWindow_iff.2 hw)
  exact ⟨hemit 0, hemit 1, hemit 2⟩

/-- A window class runs in the open classification, whatever symbol it gives there. -/
theorem exec_window_eq_onWindow {i : Instr} (hc : isCommand i = false) (s : State) : ∃ f, exec i s = onWindow f s := by
  cases hi : encode Config.default i with
  | command words => simp [isCommand, hi] at hc
  | window w =>
    rcases window_families _ i w hi with ⟨j, rfl⟩ | ⟨l, rfl⟩ | rfl
    · exact ⟨_, exec_controlInstr j s⟩
    · exact ⟨_, exec_guardInstr l s⟩
    · exact ⟨_, exec_dataInstr w s⟩

theorem onWindow_closed (f : Config → WindowContext → Symbol) {s : State} (hu : s.walk = none) :
    onWindow f s = .refused .noClassification := by
  rw [onWindow, hu]

theorem onWindow_past_end (f : Config → WindowContext → Symbol) {s : State} {u : Walk} (hu : s.walk = some u)
    (hw : u.hasWindow = false) : onWindow f s = .fault .windowPastEnd := by
  simp only [onWindow, hu, hw, Bool.false_eq_true, if_false]

/-- Settles O45: every class runs through the one operation that reads the open classification. -/
theorem windowClassesNeedAWindow : Obligations.WindowClassesNeedAWindow := by
  intro i s hc
  obtain ⟨f, hf⟩ := exec_window_eq_onWindow hc s
  refine ⟨fun hu => hf.trans (onWindow_closed f hu), fun u hu hshort => hf.trans (onWindow_past_end f hu ?_)⟩
  exact Bool.eq_false_iff.2 fun hw => absurd (u.hasWindow_iff.1 hw) (Nat.not_le.2 hshort)

end Sys2Proof.Machine
end
